-- ==== Sys2Proof/Word.lean ====
section
/-! DEFINITION. The widths of the block: lane words, memory bytes and the read pointer (00_scope.md R5, 10_state.md R21). -/

namespace Sys2Proof

/-- A lane, seed, length, digest or host register value: 64 bits, unsigned (R5). -/
abbrev Word := BitVec 64

/-- One byte of the data space (R51). -/
abbrev Byte := BitVec 8

/-- The read pointer PTR: 65 bits, so that the end of an input at the top of a 64-bit space fits (R26). -/
abbrev Pointer := BitVec 65

end Sys2Proof
end

