-- ==== Sys2Proof/Config.lean ====
section
/-! DEFINITION. What an implementation fixes (the parameters of 00_scope.md R3) and the two free values of the spec (20_memory.md R55, R56, R59). -/

namespace Sys2Proof

/-- The rotation amount s0 (R3, R27). -/
def s0 : Nat := 41

/-- The rotation amount s1 (R3, R27). -/
def s1 : Nat := 17

/-- The rotation amount s2 (R3, R27). -/
def s2 : Nat := 31

/-- The constant ROM's seven words PRIME[0..6] (R27). They are a parameter: the source gives no value (R3, D3). -/
structure Rom where
  p0 : Word
  p1 : Word
  p2 : Word
  p3 : Word
  p4 : Word
  p5 : Word
  p6 : Word
deriving DecidableEq, Repr

/-- PRIME[0..6] in order (R27). -/
def Rom.words (r : Rom) : List Word := [r.p0, r.p1, r.p2, r.p3, r.p4, r.p5, r.p6]

/-- The values D3 and G1 propose, from general knowledge and not from the source.
PRESUMED (log 4), unsafe: only `State.reset` holds them, and no statement rests on them. -/
def Rom.proposed : Rom :=
  ⟨0xEC99BF0D8372CAAB, 0x82434FE90EDCEF39, 0xD4F06DB99D67BE4B, 0xBD9CACC22C6E9571,
   0x9C06FAF4D023E3AB, 0xC060724A8424F345, 0xCB5AF53AE3AAAC31⟩

/-- `size` addresses from `base` on. -/
structure Region where
  base : Nat
  size : Nat
deriving DecidableEq, Repr

/-- The address lies in the region. -/
def Region.contains (r : Region) (addr : Nat) : Bool := r.base ≤ addr && addr < r.base + r.size

/-- The parameters a platform fixes once (R3, R182 item 1) and no step changes. -/
structure Platform where
  /-- ADDR_W, the width of data-space addresses: 1..64 (R3). -/
  addrW : Nat
  /-- REG_BASE, the platform address of the register window (R60). -/
  regBase : Nat
  /-- PRIME (R27). -/
  rom : Rom
  /-- The data-space regions whose reads have side effects. R58 says nothing of an operation that reads one. -/
  sideEffects : List Region
deriving DecidableEq, Repr

/-- A read of this address has side effects (R58). -/
def Platform.hasSideEffects (p : Platform) (addr : Nat) : Bool := p.sideEffects.any (·.contains addr)

/-- The platform of `State.reset`: ADDR_W at the spec's default 64 (R3, log 5), REG_BASE at 0
(DESIGN CHOICE, log 6, unsafe), PRIME at the proposed values (PRESUMED, log 4, unsafe) and no side-effecting
region (DESIGN CHOICE, log 10, unsafe). -/
def Platform.assumed : Platform := ⟨64, 0, Rom.proposed, []⟩

/-- The `i`-th draw: the byte an operation reads where the host changed its input (R59, U7). A free value: no body,
so nothing can be proved of it (log 8). -/
opaque Config.drawByte : Nat → Byte

/-- Whether the faulting step that takes the `i`-th draw had read the byte at an address before it stopped: R55 bounds what
such a step has read, and R56 leaves its order open. A free value: no body, so nothing can be proved of it (log 11). -/
opaque Config.readBeforeFault : Nat → Nat → Bool

end Sys2Proof
end

