-- ==== Sys2Proof/Syntax.lean ====
section
/-! DEFINITION. What the machine is asked to do: the 26 rows of spec/opcode_table.json, the two encodings they are read from (30_encoding.md R70, R74), and the host's program lines (R78). -/

namespace Sys2Proof

/-- The operations of spec/opcode_table.json: ten stages of the sequencer (R70), which have no operand field (R73), and
sixteen host accesses (R74), whose writes carry 64 data bits. -/
inductive Instr where
  | idle
  | init
  | block
  | fold
  | tail25
  | tail17
  | tail9
  | tail1
  | final
  | faulted
  | start (data : Word)
  | wrDataAddr (data : Word)
  | wrLen (data : Word)
  | wrSeed (data : Word)
  | wrStatusIgnored (data : Word)
  | wrDigestIgnored (data : Word)
  | wrCauseIgnored (data : Word)
  | wrFaultAddrIgnored (data : Word)
  | rdCtrl
  | rdStatus
  | rdDataAddr
  | rdLen
  | rdSeed
  | rdDigest
  | rdCause
  | rdFaultAddr
deriving DecidableEq, Repr

/-- What a decoder reads: a STAGE code (R70), or a host access as a bus wrapper encodes it, a 1-bit direction, a 6-bit
offset and 64 data bits (R74). Bits 6:0 of the bus word are the key of R80 and bits 70:7 the data
(DESIGN CHOICE, log 13, unsafe). -/
inductive Encoded where
  | stage (code : BitVec 4)
  | bus (word : BitVec 71)
deriving DecidableEq, Repr

/-- The direction of a host access (R74). -/
inductive Direction where
  | read
  | write
deriving DecidableEq, Repr

/-- A host access as the platform presents it: direction, platform address, width in bits, and write data (R74, R124). -/
structure BusAccess where
  dir : Direction
  addr : Nat
  width : Nat
  data : Word
deriving DecidableEq, Repr

/-- The eight registers of the window (R28). -/
inductive HostReg where
  | ctrl
  | status
  | dataAddr
  | len
  | seed
  | digest
  | cause
  | faultAddr
deriving DecidableEq, Repr

/-- One line of a host program: an access (a WR or RD line), or WAIT, which polls STATUS (R78). -/
inductive HostLine where
  | access (a : BusAccess)
  | wait
deriving DecidableEq, Repr

/-- Who moves next (R125). The last two are what the outside does to the block: reset (R180), and a store to the data
space by the host or the platform (R59, R62, R183). -/
inductive Turn where
  | sequencer
  | host
  | reset
  | memWrite (addr : Nat) (byte : Byte)
deriving DecidableEq, Repr

end Sys2Proof
end

