-- ==== Sys2Proof/WellFormed.lean ====
section
/-! DEFINITION. Which encodings, host accesses and platforms are legal (00_scope.md R3, 30_encoding.md R75, 42_host_and_init.md R124). Every term of Instr is legal: a stage has no operand and a write takes any 64-bit value (10_state.md R29, R31). -/

namespace Sys2Proof

/-- The stage codes 0x9 to 0xE are reserved (R75). -/
def stageCodeReserved (code : BitVec 4) : Bool := 9 ≤ code.toNat && code.toNat ≤ 14

/-- A stage code is legal when it is not reserved; a bus word is legal when its offset is a multiple of 8 (R75). -/
def Encoded.wf : Encoded → Bool
  | .stage code => !stageCodeReserved code
  | .bus word => word.toNat % 8 == 0

/-- The access is 64 bits wide, lies in the 64 bytes of the window, and is 8-byte aligned there (R124). -/
def BusAccess.wf (regBase : Nat) (a : BusAccess) : Bool :=
  a.width == 64 && (regBase ≤ a.addr && a.addr < regBase + 0x40) && (a.addr - regBase) % 8 == 0

/-- PRIME is "seven 64-bit odd primes" (R3, R27). -/
def Rom.oddPrimes (r : Rom) : Prop := ∀ p ∈ r.words, p.toNat.Prime ∧ p.toNat % 2 = 1

/-- The parameters lie in their ranges: ADDR_W in 1..64 and odd primes (R3). -/
def Platform.wf (p : Platform) : Prop := (1 ≤ p.addrW ∧ p.addrW ≤ 64) ∧ p.rom.oddPrimes

end Sys2Proof
end

