-- ==== Sys2Proof/Decode.lean ====
section
/-! DEFINITION. The encodings of 30_encoding.md: stage codes (R70), register offsets (R28), host access keys (R74, R80); the decoders, the encoder, and the reading of spec/opcode_table.json's numbers. -/

namespace Sys2Proof

/-! ### Stage codes (R70) -/

/-- No operation in progress. -/
def stageIdle : BitVec 4 := 0x0
/-- Range check and lane initialisation. -/
def stageInit : BitVec 4 := 0x1
/-- One 32-byte block. -/
def stageBlock : BitVec 4 := 0x2
/-- Fold lanes C and D. -/
def stageFold : BitVec 4 := 0x3
/-- Tail stage for N ≥ 25. -/
def stageTail25 : BitVec 4 := 0x4
/-- Tail stage for 17 ≤ N ≤ 24. -/
def stageTail17 : BitVec 4 := 0x5
/-- Tail stage for 9 ≤ N ≤ 16. -/
def stageTail9 : BitVec 4 := 0x6
/-- Tail stage for 1 ≤ N ≤ 8. -/
def stageTail1 : BitVec 4 := 0x7
/-- Finalizer. -/
def stageFinal : BitVec 4 := 0x8
/-- Stopped by a fault. -/
def stageFaulted : BitVec 4 := 0xF

/-- A register's byte offset in the window (R28). -/
def HostReg.offset : HostReg → Nat
  | .ctrl => 0x00
  | .status => 0x08
  | .dataAddr => 0x10
  | .len => 0x18
  | .seed => 0x20
  | .digest => 0x28
  | .cause => 0x30
  | .faultAddr => 0x38

/-! ### Decoding -/

/-- Why an encoding has no instruction. -/
inductive DecodeError where
  /-- A stage code of 0x9 to 0xE (R75, R76). -/
  | reservedStage (code : BitVec 4)
  /-- A host access that is not 64 bits wide (R124). -/
  | illegalWidth (width : Nat)
  /-- A host access outside the 64 bytes from REG_BASE on (R124). -/
  | outsideWindow (addr : Nat)
  /-- A host access whose offset is not a multiple of 8 (R124). -/
  | misalignedOffset (offset : Nat)
deriving DecidableEq, Repr

/-- The operation a STAGE code names (R70). -/
def decodeStage (code : BitVec 4) : Except DecodeError Instr :=
  match code.toNat with
  | 0x0 => .ok .idle
  | 0x1 => .ok .init
  | 0x2 => .ok .block
  | 0x3 => .ok .fold
  | 0x4 => .ok .tail25
  | 0x5 => .ok .tail17
  | 0x6 => .ok .tail9
  | 0x7 => .ok .tail1
  | 0x8 => .ok .final
  | 0xF => .ok .faulted
  | _ => .error (.reservedStage code)

/-- Bits 6:0 of a bus word: direction in bit 6, offset in bits 5:0 (R80). -/
def busKey (word : BitVec 71) : BitVec 7 := word.extractLsb' 0 7

/-- Bits 70:7 of a bus word: the write data (R74, log 13). -/
def busData (word : BitVec 71) : Word := word.extractLsb' 7 64

/-- The bus word of a key and data. -/
def packBus (key : BitVec 7) (data : Word) : BitVec 71 := data ++ key

/-- The host access a bus word names (R74). Every key whose offset is a multiple of 8 is legal; a read ignores the data. -/
def decodeBus (word : BitVec 71) : Except DecodeError Instr :=
  match (busKey word).toNat with
  | 0x40 => .ok (.start (busData word))
  | 0x50 => .ok (.wrDataAddr (busData word))
  | 0x58 => .ok (.wrLen (busData word))
  | 0x60 => .ok (.wrSeed (busData word))
  | 0x48 => .ok (.wrStatusIgnored (busData word))
  | 0x68 => .ok (.wrDigestIgnored (busData word))
  | 0x70 => .ok (.wrCauseIgnored (busData word))
  | 0x78 => .ok (.wrFaultAddrIgnored (busData word))
  | 0x00 => .ok .rdCtrl
  | 0x08 => .ok .rdStatus
  | 0x10 => .ok .rdDataAddr
  | 0x18 => .ok .rdLen
  | 0x20 => .ok .rdSeed
  | 0x28 => .ok .rdDigest
  | 0x30 => .ok .rdCause
  | 0x38 => .ok .rdFaultAddr
  | key => .error (.misalignedOffset (key % 64))

/-- The operation an encoding names. -/
def decode : Encoded → Except DecodeError Instr
  | .stage code => decodeStage code
  | .bus word => decodeBus word

/-- Bit 6 of the key: 1 = W, 0 = R (R80). -/
def directionBit : Direction → BitVec 1
  | .read => 0
  | .write => 1

/-- The bus word of an access at an offset below 64. -/
def busWordOf (dir : Direction) (offset : Nat) (data : Word) : BitVec 71 :=
  packBus (directionBit dir ++ BitVec.ofNat 6 offset) data

/-- The host access a platform access asks for, or why it is illegal (R74, R124). The order in which the three checks
name an access that fails several is DESIGN CHOICE (log 16). -/
def decodeAccess (regBase : Nat) (a : BusAccess) : Except DecodeError Instr :=
  if a.width ≠ 64 then .error (.illegalWidth a.width)
  else if a.addr < regBase ∨ regBase + 0x40 ≤ a.addr then .error (.outsideWindow a.addr)
  else decodeBus (busWordOf a.dir (a.addr - regBase) a.data)

/-! ### Encoding -/

/-- The bus word of a write of a register. -/
def encodeWrite (r : HostReg) (data : Word) : Encoded := .bus (busWordOf .write r.offset data)

/-- The bus word of a read of a register, its data bits 0. -/
def encodeRead (r : HostReg) : Encoded := .bus (busWordOf .read r.offset 0)

/-- The encoding of an instruction, from the tables of R70 and R74. -/
def encode : Instr → Encoded
  | .idle => .stage stageIdle
  | .init => .stage stageInit
  | .block => .stage stageBlock
  | .fold => .stage stageFold
  | .tail25 => .stage stageTail25
  | .tail17 => .stage stageTail17
  | .tail9 => .stage stageTail9
  | .tail1 => .stage stageTail1
  | .final => .stage stageFinal
  | .faulted => .stage stageFaulted
  | .start data => encodeWrite .ctrl data
  | .wrDataAddr data => encodeWrite .dataAddr data
  | .wrLen data => encodeWrite .len data
  | .wrSeed data => encodeWrite .seed data
  | .wrStatusIgnored data => encodeWrite .status data
  | .wrDigestIgnored data => encodeWrite .digest data
  | .wrCauseIgnored data => encodeWrite .cause data
  | .wrFaultAddrIgnored data => encodeWrite .faultAddr data
  | .rdCtrl => encodeRead .ctrl
  | .rdStatus => encodeRead .status
  | .rdDataAddr => encodeRead .dataAddr
  | .rdLen => encodeRead .len
  | .rdSeed => encodeRead .seed
  | .rdDigest => encodeRead .digest
  | .rdCause => encodeRead .cause
  | .rdFaultAddr => encodeRead .faultAddr

/-- The platform access a bus word stands for, in a window at `regBase`. -/
def accessOfBus (regBase : Nat) (word : BitVec 71) : BusAccess :=
  { dir := if (busKey word).getLsbD 6 then .write else .read
    addr := regBase + (busKey word).toNat % 64
    width := 64
    data := busData word }

/-- The platform access of a host access instruction; none for a stage. -/
def encodeAccess (regBase : Nat) (i : Instr) : Option BusAccess :=
  match encode i with
  | .stage _ => none
  | .bus word => some (accessOfBus regBase word)

/-! ### spec/opcode_table.json -/

/-- The encoding a table row's number stands for. Rows of 4 bits are stage codes and rows of 7 bits host keys; in whole
bytes both have 8 bits, and a number below 16 is then read as a stage code (DESIGN CHOICE, log 12): the numbers 0x00 and
0x08 are each a stage code and a host key in the table. -/
def tableEncoding (nbits w : Nat) : Encoded :=
  if nbits ≤ 4 then .stage (BitVec.ofNat 4 w)
  else if nbits ≤ 7 then .bus (BitVec.ofNat 71 w)
  else if w < 16 then .stage (BitVec.ofNat 4 w)
  else .bus (BitVec.ofNat 71 w)

/-- The instruction the decoder reads from a table row's bits. -/
def decodeTableWord (nbits w : Nat) : Option Instr :=
  match decode (tableEncoding nbits w) with
  | .ok i => some i
  | .error _ => none

end Sys2Proof
end

