-- ==== Sys2Proof/Machine/State.lean ====
section
/-! DEFINITION. The machine's state (10_state.md R20, R21), the reasons a step stops, and the state after reset (70_reset_and_hazards.md R180). -/

namespace Sys2Proof.Machine

/-- Bytes by address, addresses strictly rising. As the data space: the listed addresses are MEM_READABLE and their
bytes are M (20_memory.md R51, R52); an address that is not listed has no byte. -/
abbrev Memory := List Host.Cell

/-- Why the model stops with a fault. The block's own faults, ReadFault and RangeFault, are NOT here: their entry is
described (60_exceptions.md R163) and leads to a next state. -/
inductive Fault where
  /-- A reading stage would read `addr`, whose read has side effects. R58 puts such an operation outside the spec.
  Raised by BLOCK, TAIL25, TAIL17, TAIL9 and TAIL1. Safe: the model says nothing of what follows (log 10). -/
  | sideEffectRead (addr : Nat)
deriving DecidableEq, Repr

/-- Why the model refuses a step. All of them are safe: the model says nothing of what follows. -/
inductive Refusal where
  /-- An instruction without a meaning. No arm of `exec` answers it. Safe. -/
  | notModelled (mnemonic : String)
  /-- STAGE holds a reserved code, 0x9 to 0xE (R75, R76). Raised by every turn but reset. Safe (log 14). -/
  | reservedStage (code : BitVec 4)
  /-- A host access that is not 64 bits wide (R124). Raised by the host's turn. Safe. -/
  | illegalWidth (width : Nat)
  /-- A host access outside the register window (R124). Raised by the host's turn. Safe. -/
  | outsideWindow (addr : Nat)
  /-- A host access at an offset that is not a multiple of 8 (R124). Raised by the host's turn. Safe. -/
  | misalignedOffset (offset : Nat)
  /-- tail64 called with a count outside 1..8 (R104). Raised by TAIL1, in states no run reaches. Safe (log 22). -/
  | tailCount (count : Nat)
deriving DecidableEq, Repr

/-- The machine. The first sixteen fields are the registers of R21; `platform` holds the constant ROM of R27 and the
parameters of R3; `mem` is the data space of R50. The rest is the model's own: INVENTORY.md says what for. -/
structure State where
  /-- Lane A. -/
  a : Word
  /-- Lane B. -/
  b : Word
  /-- Lane C. -/
  c : Word
  /-- Lane D. -/
  d : Word
  /-- PTR, the address of the next input byte to read (R26). -/
  ptr : Pointer
  /-- N, the input bytes not yet read (R26). -/
  n : Word
  /-- LEN_L, `len` latched at START. -/
  lenL : Word
  /-- SEED_L, `seed` latched at START. -/
  seedL : Word
  /-- STAGE, the stage the next sequencer step performs (R25, R70). -/
  stage : BitVec 4
  /-- DONE. -/
  done : Bool
  /-- DIGEST. -/
  digest : Word
  /-- CAUSE (R160). -/
  cause : BitVec 8
  /-- FAULT_ADDR. -/
  faultAddr : Word
  /-- DATA_ADDR. -/
  dataAddr : Word
  /-- LEN. -/
  len : Word
  /-- SEED. -/
  seed : Word
  /-- The parameters, the constant ROM among them (R3, R27). -/
  platform : Platform
  /-- MEM_READABLE and M (R51, R52). -/
  mem : Memory
  /-- What the running operation reads at the addresses whose byte was changed since its START (R59, log 8). -/
  drawn : Memory
  /-- The index of the next draw (log 8, 11). -/
  draws : Nat
  /-- The MemRead events since START, one set of addresses for each step that read, each set written in rising order
  (R51, R56, log 11). -/
  reads : List (List Nat)
  /-- The value the host's latest read access returned (R123, log 3). -/
  readData : Word
  /-- The host's remaining program (R78, log 3). -/
  program : List HostLine
  /-- Who moves next, and what comes from outside (R125, log 2). -/
  schedule : List Turn
deriving DecidableEq, Repr

/-- Every register at its reset value (R21, R180), on a platform `p` whose data space holds `m`, with nothing to do. -/
def State.resetOn (p : Platform) (m : Memory) : State where
  a := 0
  b := 0
  c := 0
  d := 0
  ptr := 0
  n := 0
  lenL := 0
  seedL := 0
  stage := stageIdle
  done := false
  digest := 0
  cause := 0
  faultAddr := 0
  dataAddr := 0
  len := 0
  seed := 0
  platform := p
  mem := m
  drawn := []
  draws := 0
  reads := []
  readData := 0
  program := []
  schedule := []

/-- The machine right after reset (R180), on the assumed platform (log 4, 5, 6, 10) with no readable memory (log 7). -/
def State.reset : State := State.resetOn Platform.assumed []

end Sys2Proof.Machine
end

