-- ==== Sys2Proof/Machine/Flags.lean ====
section
/-! DEFINITION. The STATUS bits (10_state.md R30). Lane arithmetic has no flags (R24). -/

namespace Sys2Proof.Machine

/-- BUSY: STAGE is one of 0x1 to 0x8, from INIT through FINAL (R30). -/
def busy (s : State) : Bool := 1 ≤ s.stage.toNat && s.stage.toNat ≤ 8

/-- FAULT: STAGE is FAULTED (R30). -/
def faultFlag (s : State) : Bool := s.stage == stageFaulted

/-- STATUS as a read returns it, 52 zero bits, STAGE, 5 zero bits, FAULT, DONE, BUSY (R123). -/
def status (s : State) : Word :=
  0#52 ++ s.stage ++ 0#5 ++ BitVec.ofBool (faultFlag s) ++ BitVec.ofBool s.done ++ BitVec.ofBool (busy s)

end Sys2Proof.Machine
end

