-- ==== Sys2Proof/Machine/Memory.lean ====
section
/-! DEFINITION. The data space as a list of cells in one canonical form (20_memory.md R50 to R52). -/

namespace Sys2Proof.Machine

/-- The byte at an address; none where the address is not listed. -/
def Memory.read : Memory → Nat → Option Byte
  | [], _ => none
  | cell :: m, addr => if addr = cell.1 then some cell.2 else Memory.read m addr

/-- The byte put at an address, in the list's order. -/
def Memory.write : Memory → Nat → Byte → Memory
  | [], addr, byte => [(addr, byte)]
  | cell :: m, addr, byte =>
    if addr < cell.1 then (addr, byte) :: cell :: m
    else if addr = cell.1 then (addr, byte) :: m
    else cell :: Memory.write m addr byte

/-- The canonical form: addresses strictly rise. An unlisted address reads as no byte, so no entry can equal that. -/
abbrev Memory.wf (m : Memory) : Prop := m.Pairwise fun x y => x.1 < y.1

end Sys2Proof.Machine
end

