-- ==== Sys2Proof/Machine/Operands.lean ====
section
/-! DEFINITION. The operand forms: the memory port and the byte loader (20_memory.md R51, 40_byte_loader.md R100 to R105), and the mixing primitives (41_mixing_primitives.md R110 to R115). -/

namespace Sys2Proof.Machine

/-! ### The memory port -/

/-- What a step's reads give. -/
inductive ReadResult (α : Type) where
  /-- The value assembled from the bytes read. -/
  | ok (v : α)
  /-- MemRead refuses `addr`, the lowest refused address of the step (R51, R164). -/
  | refused (addr : Nat)
  /-- `addr` is an address whose read has side effects (R58). -/
  | unsaid (addr : Nat)
deriving DecidableEq, Repr

/-- A value was read. -/
def ReadResult.isOk {α : Type} : ReadResult α → Bool
  | .ok _ => true
  | _ => false

/-- The reads of one step taken together, `x`'s addresses all below `y`'s. Their order is open (R56), so a side-effecting
address anywhere makes the step unsaid (R58); else the lowest refused address is reported (R164). -/
def ReadResult.both {α β γ : Type} (f : α → β → γ) (x : ReadResult α) (y : ReadResult β) : ReadResult γ :=
  match x, y with
  | .unsaid addr, _ => .unsaid addr
  | _, .unsaid addr => .unsaid addr
  | .refused addr, _ => .refused addr
  | .ok _, .refused addr => .refused addr
  | .ok v, .ok w => .ok (f v w)

/-- MemRead(addr, 1) (R51). A byte the host changed during the operation is a draw (R59, log 8). -/
def memRead (s : State) (addr : Nat) : ReadResult Byte :=
  if 2 ^ s.platform.addrW ≤ addr then .refused addr
  else match s.mem.read addr with
    | none => .refused addr
    | some byte =>
      if s.platform.hasSideEffects addr then .unsaid addr
      else .ok ((s.drawn.read addr).getD byte)

/-! ### The byte loader -/

/-- LoadLE(p, k): the k bytes p .. p+k−1, the byte at the lowest address in bits 7:0 (R100). -/
def loadLE (s : State) (p : Nat) : Nat → ReadResult Word
  | 0 => .ok 0
  | k + 1 =>
    ReadResult.both (fun (v : Word) (byte : Byte) => v ||| (byte.setWidth 64 <<< (8 * k)))
      (loadLE s p k) (memRead s (p + k))

/-- load64 (R101). -/
def load64 (s : State) (p : Nat) : ReadResult Word := loadLE s p 8

/-- load32 (R102); no stage calls it (R105). -/
def load32 (s : State) (p : Nat) : ReadResult Word := loadLE s p 4

/-- load16 (R103); no stage calls it (R105). -/
def load16 (s : State) (p : Nat) : ReadResult Word := loadLE s p 2

/-- load8 (R103); no stage calls it (R105). -/
def load8 (s : State) (p : Nat) : ReadResult Word := loadLE s p 1

/-- tail64(p, n), for 1 ≤ n ≤ 8; none outside that domain, where a model refuses the call (R104). -/
def tail64 (s : State) (p n : Nat) : Option (ReadResult Word) :=
  if 1 ≤ n ∧ n ≤ 8 then some (loadLE s p n) else none

/-! ### The mixing primitives -/

/-- rotr(v, s), for 0 ≤ s ≤ 63 (R110). -/
def rotr (v : Word) (s : Nat) : Word := if s = 0 then v else (v >>> s) ||| (v <<< (64 - s))

/-- mul128: the exact 128-bit product (R7). -/
def mul128 (x y : Word) : BitVec 128 := x.setWidth 128 * y.setWidth 128

/-- mux64(v, p): the high half of the exact product xor its low half (R112). -/
def mux64 (v p : Word) : Word := (mul128 v p).extractLsb' 64 64 ^^^ (mul128 v p).extractLsb' 0 64

/-- mix(v, p): the low product xor its rotation by s0 (R111). -/
def mix (v p : Word) : Word := v * p ^^^ rotr (v * p) s0

/-- The product from four 32×32→64 partial products (R113), the halves as in the rule. No stage uses it. -/
def mul128Partial (v p : Word) : BitVec 128 :=
  let half (x : Word) (i : Nat) : Nat := (x.extractLsb' i 32).toNat
  let ll := half v 0 * half p 0
  let lh := half v 0 * half p 32
  let hl := half v 32 * half p 0
  let hh := half v 32 * half p 32
  let mid := ll / 2 ^ 32 + lh % 2 ^ 32 + hl % 2 ^ 32
  let lo := mid % 2 ^ 32 * 2 ^ 32 + ll % 2 ^ 32
  let hi := hh + lh / 2 ^ 32 + hl / 2 ^ 32 + mid / 2 ^ 32
  BitVec.ofNat 64 hi ++ BitVec.ofNat 64 lo

end Sys2Proof.Machine
end

