-- ==== Sys2Proof/Machine/Ops.lean ====
section
/-! DEFINITION. The shared operations: fault entry (60_exceptions.md R163), reading stages, the tail dispatch (44_tail_absorber.md R140), START acceptance (42_host_and_init.md R120), reset (70_reset_and_hazards.md R180) and stores to the data space from outside (20_memory.md R59). -/

namespace Sys2Proof.Machine

/-- The block's two faults (R160). -/
inductive FaultCause where
  | readFault
  | rangeFault
deriving DecidableEq, Repr

/-- The CAUSE codes (R160). -/
def FaultCause.code : FaultCause → BitVec 8
  | .readFault => 1
  | .rangeFault => 2

/-- Fault entry: CAUSE, FAULT_ADDR and STAGE, and nothing else (R163). FAULT_ADDR has 64 bits; in every state a run
reaches the address fits (log 15). -/
def raiseFault (s : State) (cause : FaultCause) (addr : Nat) : State :=
  { s with cause := cause.code, faultAddr := BitVec.ofNat 64 addr, stage := stageFaulted }

/-- The MemRead events of one step, as one set of addresses (R51, R56, log 11). -/
def recordReads (s : State) (addrs : List Nat) : State := { s with reads := s.reads ++ [addrs] }

/-- What a step has read that asks for the `k` bytes from `p` on and faults at `addr`: the faulting byte, and any of its
readable bytes, for the order of its reads is open (R55, R56). Which ones is a free value (log 11). -/
def faultedReads (s : State) (p k addr : Nat) : List Nat :=
  (List.range' p k).filter fun x => x == addr || ((memRead s x).isOk && Config.readBeforeFault s.draws x)

/-- ReadFault at `addr` in a step that asks for the `k` bytes from `p` on (R161, R163), its events recorded and its draw
used up (log 11). -/
def raiseReadFault (s : State) (p k addr : Nat) : State :=
  { recordReads (raiseFault s .readFault addr) (faultedReads s p k addr) with draws := s.draws + 1 }

/-- A stage that reads `k` bytes from `p` on with result `r`: its writes where every byte was read, else ReadFault
(R161, R163), else a stop where a byte's read has side effects (R58). -/
def readingStage {α : Type} (s : State) (p k : Nat) (r : ReadResult α) (writes : α → State) :
    Host.Outcome State Fault Refusal :=
  match r with
  | .ok v => .next (recordReads (writes v) (List.range' p k))
  | .refused addr => .next (raiseReadFault s p k addr)
  | .unsaid addr => .fault (.sideEffectRead addr)

/-- The tail dispatch (R140). -/
def dispatch (n : Word) : BitVec 4 :=
  if 25 ≤ n.toNat then stageTail25
  else if 17 ≤ n.toNat then stageTail17
  else if 9 ≤ n.toNat then stageTail9
  else if 1 ≤ n.toNat then stageTail1
  else stageFinal

/-- START accepted: the arguments latched, DONE cleared, INIT next (R120). A new operation has no draw and no read yet
(R59, R62 item 1). -/
def acceptStart (s : State) : State :=
  { s with
    ptr := s.dataAddr.setWidth 65
    lenL := s.len
    seedL := s.seed
    done := false
    stage := stageInit
    drawn := []
    reads := [] }

/-- A host read returns `v` (R123). -/
def returnValue (s : State) (v : Word) : State := { s with readData := v }

/-- Reset: every register at its reset value, the ROM unchanged (R180). The memory, the host and the schedule are outside
the block and stay (log 17). -/
def resetBlock (s : State) : State :=
  { State.resetOn s.platform s.mem with
    draws := s.draws
    readData := s.readData
    program := s.program
    schedule := s.schedule }

/-- A store to the data space from outside. M is defined on MEM_READABLE only, so a store elsewhere changes nothing of it
(R52, log 7). A change while an operation runs makes the byte a draw for that operation (R59, R183, log 8, 9). -/
def storeByte (s : State) (addr : Nat) (byte : Byte) : State :=
  if s.mem.read addr = none ∨ s.mem.read addr = some byte then s
  else if busy s then
    { s with
      mem := s.mem.write addr byte
      drawn := s.drawn.write addr (Config.drawByte s.draws)
      draws := s.draws + 1 }
  else { s with mem := s.mem.write addr byte }

end Sys2Proof.Machine
end

