-- ==== Sys2Proof/Machine/Block.lean ====
section
/-! DEFINITION. BLOCK and FOLD (43_block_mixer.md R131, R133). -/

namespace Sys2Proof.Machine

/-- A block's four words w0..w3 (R131). -/
structure BlockWords where
  w0 : Word
  w1 : Word
  w2 : Word
  w3 : Word
deriving DecidableEq, Repr

/-- The four loads of a block at `p` (R131). -/
def loadBlock (s : State) (p : Nat) : ReadResult BlockWords :=
  ReadResult.both (fun (x y : Word × Word) => ⟨x.1, x.2, y.1, y.2⟩)
    (ReadResult.both Prod.mk (load64 s p) (load64 s (p + 8)))
    (ReadResult.both Prod.mk (load64 s (p + 16)) (load64 s (p + 24)))

/-- BLOCK's writes (R131). Every right-hand side reads the values from before the step. -/
def mixBlock (s : State) (w : BlockWords) : State :=
  let rom := s.platform.rom
  let d02 := w.w0 ^^^ rotr (w.w2 + s.d) s1
  let c13 := w.w1 ^^^ rotr (w.w3 + s.c) s1
  { s with
    c := s.c + (s.a ^^^ rotr w.w0 s0)
    d := s.d - (s.b ^^^ rotr w.w1 s2)
    a := s.a ^^^ (rom.p1 * (d02 + w.w3))
    b := s.b ^^^ (rom.p0 * (c13 + w.w2))
    ptr := s.ptr + 32
    n := s.n - 32
    stage := if 32 ≤ (s.n - 32).toNat then stageBlock else stageFold }

/-- BLOCK (R131). -/
def execBlock (s : State) : Host.Outcome State Fault Refusal :=
  readingStage s s.ptr.toNat 32 (loadBlock s s.ptr.toNat) (mixBlock s)

/-- FOLD (R133). -/
def execFold (s : State) : Host.Outcome State Fault Refusal :=
  let rom := s.platform.rom
  .next
    { s with
      a := s.a ^^^ (rom.p6 * (rotr s.c s1 + s.d))
      b := s.b ^^^ (rom.p5 * (s.c + rotr s.d s1))
      stage := dispatch s.n }

end Sys2Proof.Machine
end

