-- ==== Sys2Proof/Machine/HostAccess.lean ====
section
/-! DEFINITION. The host accesses (42_host_and_init.md R120, R123; 10_state.md R28 to R32). -/

namespace Sys2Proof.Machine

/-- START, a write of CTRL: bit 0 requests an operation, accepted in IDLE only; bits 63:1 are ignored (R29, R120). -/
def execStart (data : Word) (s : State) : Host.Outcome State Fault Refusal :=
  .next (if data.getLsbD 0 && s.stage == stageIdle then acceptStart s else s)

/-- A write of DATA_ADDR, in any stage (R31, R123). -/
def execWrDataAddr (data : Word) (s : State) : Host.Outcome State Fault Refusal := .next { s with dataAddr := data }

/-- A write of LEN, in any stage (R31, R123). -/
def execWrLen (data : Word) (s : State) : Host.Outcome State Fault Refusal := .next { s with len := data }

/-- A write of SEED, in any stage (R31, R123). -/
def execWrSeed (data : Word) (s : State) : Host.Outcome State Fault Refusal := .next { s with seed := data }

/-- A write of STATUS is ignored (R30, R123). -/
def execWrStatusIgnored (_data : Word) (s : State) : Host.Outcome State Fault Refusal := .next s

/-- A write of DIGEST is ignored (R32, R123). -/
def execWrDigestIgnored (_data : Word) (s : State) : Host.Outcome State Fault Refusal := .next s

/-- A write of CAUSE is ignored (R32, R123). -/
def execWrCauseIgnored (_data : Word) (s : State) : Host.Outcome State Fault Refusal := .next s

/-- A write of FAULT_ADDR is ignored (R32, R123). -/
def execWrFaultAddrIgnored (_data : Word) (s : State) : Host.Outcome State Fault Refusal := .next s

/-- A read of CTRL returns 0 (R29, R123). -/
def execRdCtrl (s : State) : Host.Outcome State Fault Refusal := .next (returnValue s 0)

/-- A read of STATUS returns the fields of R30 at the time of the step (R123). -/
def execRdStatus (s : State) : Host.Outcome State Fault Refusal := .next (returnValue s (status s))

/-- A read of DATA_ADDR (R123). -/
def execRdDataAddr (s : State) : Host.Outcome State Fault Refusal := .next (returnValue s s.dataAddr)

/-- A read of LEN (R123). -/
def execRdLen (s : State) : Host.Outcome State Fault Refusal := .next (returnValue s s.len)

/-- A read of SEED (R123). -/
def execRdSeed (s : State) : Host.Outcome State Fault Refusal := .next (returnValue s s.seed)

/-- A read of DIGEST (R123). -/
def execRdDigest (s : State) : Host.Outcome State Fault Refusal := .next (returnValue s s.digest)

/-- A read of CAUSE, zero-extended (R123). -/
def execRdCause (s : State) : Host.Outcome State Fault Refusal := .next (returnValue s (s.cause.setWidth 64))

/-- A read of FAULT_ADDR (R123). -/
def execRdFaultAddr (s : State) : Host.Outcome State Fault Refusal := .next (returnValue s s.faultAddr)

end Sys2Proof.Machine
end

