-- ==== Sys2Proof/Machine/Sequencer.lean ====
section
/-! DEFINITION. The stages outside the data path: IDLE, INIT, FAULTED (42_host_and_init.md R121, R122, 60_exceptions.md R163, R165) and FINAL (45_finalizer.md R150). -/

namespace Sys2Proof.Machine

/-- IDLE: the sequencer has no step, so nothing changes (R71, R122, log 1). -/
def execIdle (s : State) : Host.Outcome State Fault Refusal := .next s

/-- FAULTED: the sequencer has no step, so nothing changes; only reset leaves it (R71, R165, log 1). -/
def execFaulted (s : State) : Host.Outcome State Fault Refusal := .next s

/-- The input range does not fit the address space (R121, R162). -/
def outOfRange (s : State) : Bool :=
  0 < s.lenL.toNat && 2 ^ s.platform.addrW < s.ptr.toNat + s.lenL.toNat

/-- INIT's writes (R121). -/
def initLanes (s : State) : State :=
  { s with
    a := s.seedL
    b := s.lenL
    c := rotr s.lenL s1 + s.seedL
    d := s.lenL ^^^ rotr s.seedL s1
    n := s.lenL
    stage := if 32 < s.lenL.toNat then stageBlock else dispatch s.lenL }

/-- INIT (R121). -/
def execInit (s : State) : Host.Outcome State Fault Refusal :=
  if outOfRange s then .next (raiseFault s .rangeFault s.ptr.toNat) else .next (initLanes s)

/-- FINAL (R150). -/
def execFinal (s : State) : Host.Outcome State Fault Refusal :=
  let rom := s.platform.rom
  .next
    { s with
      digest := mux64 (rotr (s.a + s.b) s1) rom.p4 + mix (s.a ^^^ s.b) rom.p0
      done := true
      stage := stageIdle }

end Sys2Proof.Machine
end

