-- ==== Sys2Proof/Machine/Tail.lean ====
section
/-! DEFINITION. The tail stages (44_tail_absorber.md R141 to R144). -/

namespace Sys2Proof.Machine

/-- Eight bytes consumed and the next tail stage chosen (R141, R142, R143). -/
def advance8 (s : State) : State :=
  { s with ptr := s.ptr + 8, n := s.n - 8, stage := dispatch (s.n - 8) }

/-- TAIL25 (R141). -/
def execTail25 (s : State) : Host.Outcome State Fault Refusal :=
  readingStage s s.ptr.toNat 8 (load64 s s.ptr.toNat) fun w =>
    { advance8 s with b := s.b + mux64 w s.platform.rom.p4 }

/-- TAIL17 (R142). -/
def execTail17 (s : State) : Host.Outcome State Fault Refusal :=
  readingStage s s.ptr.toNat 8 (load64 s s.ptr.toNat) fun w =>
    { advance8 s with a := s.a + mux64 w s.platform.rom.p3 }

/-- TAIL9 (R143). -/
def execTail9 (s : State) : Host.Outcome State Fault Refusal :=
  readingStage s s.ptr.toNat 8 (load64 s s.ptr.toNat) fun w =>
    { advance8 s with b := s.b + mux64 w s.platform.rom.p2 }

/-- TAIL1 (R144). Outside 1..8 the call of tail64 is refused (R104); no run reaches that (log 22). -/
def execTail1 (s : State) : Host.Outcome State Fault Refusal :=
  match tail64 s s.ptr.toNat s.n.toNat with
  | none => .refused (.tailCount s.n.toNat)
  | some r =>
    readingStage s s.ptr.toNat s.n.toNat r fun w =>
      { s with
        a := s.a + mux64 w s.platform.rom.p1
        ptr := s.ptr + s.n.setWidth 65
        n := 0
        stage := stageFinal }

end Sys2Proof.Machine
end

