-- ==== Sys2Proof/Machine/Dispatch.lean ====
section
/-! DEFINITION. One arm per row of spec/opcode_table.json. -/

namespace Sys2Proof.Machine

def exec (i : Instr) (s : State) : Host.Outcome State Fault Refusal :=
  match i with
  | .idle => Sys2Proof.Machine.execIdle s
  | .init => Sys2Proof.Machine.execInit s
  | .block => Sys2Proof.Machine.execBlock s
  | .fold => Sys2Proof.Machine.execFold s
  | .tail25 => Sys2Proof.Machine.execTail25 s
  | .tail17 => Sys2Proof.Machine.execTail17 s
  | .tail9 => Sys2Proof.Machine.execTail9 s
  | .tail1 => Sys2Proof.Machine.execTail1 s
  | .final => Sys2Proof.Machine.execFinal s
  | .faulted => Sys2Proof.Machine.execFaulted s
  | .start data => Sys2Proof.Machine.execStart data s
  | .wrDataAddr data => Sys2Proof.Machine.execWrDataAddr data s
  | .wrLen data => Sys2Proof.Machine.execWrLen data s
  | .wrSeed data => Sys2Proof.Machine.execWrSeed data s
  | .wrStatusIgnored data => Sys2Proof.Machine.execWrStatusIgnored data s
  | .wrDigestIgnored data => Sys2Proof.Machine.execWrDigestIgnored data s
  | .wrCauseIgnored data => Sys2Proof.Machine.execWrCauseIgnored data s
  | .wrFaultAddrIgnored data => Sys2Proof.Machine.execWrFaultAddrIgnored data s
  | .rdCtrl => Sys2Proof.Machine.execRdCtrl s
  | .rdStatus => Sys2Proof.Machine.execRdStatus s
  | .rdDataAddr => Sys2Proof.Machine.execRdDataAddr s
  | .rdLen => Sys2Proof.Machine.execRdLen s
  | .rdSeed => Sys2Proof.Machine.execRdSeed s
  | .rdDigest => Sys2Proof.Machine.execRdDigest s
  | .rdCause => Sys2Proof.Machine.execRdCause s
  | .rdFaultAddr => Sys2Proof.Machine.execRdFaultAddr s

end Sys2Proof.Machine
end

