-- ==== Sys2Proof/Machine/HostProgram.lean ====
section
/-! DEFINITION. The host's notation: WR, RD and the pseudo-instruction HASH as host program lines (30_encoding.md R78, R79). WAIT is a line of its own. -/

namespace Sys2Proof.Machine

/-- `WR <reg>, <value>`: the access (W, off(reg), value) (R78). -/
def wr (regBase : Nat) (r : HostReg) (v : Word) : HostLine :=
  .access { dir := .write, addr := regBase + r.offset, width := 64, data := v }

/-- `RD <reg>`: the access (R, off(reg)) (R78). -/
def rd (regBase : Nat) (r : HostReg) : HostLine :=
  .access { dir := .read, addr := regBase + r.offset, width := 64, data := 0 }

/-- `HASH <data>, <len>, <seed>` expanded (R79). -/
def hashLines (regBase : Nat) (data len seed : Word) : List HostLine :=
  [wr regBase .dataAddr data, wr regBase .len len, wr regBase .seed seed, wr regBase .ctrl 1, .wait, rd regBase .digest]

end Sys2Proof.Machine
end

