-- ==== Sys2Proof/Machine/Turn.lean ====
section
/-! DEFINITION. The turns of the agents and the choice between them (30_encoding.md R71, R76, R78; 42_host_and_init.md R124, R125; 70_reset_and_hazards.md R180). -/

namespace Sys2Proof.Machine

/-- The refusal of an encoding that has no instruction (R75, R124). -/
def refusalOf : DecodeError → Refusal
  | .reservedStage code => .reservedStage code
  | .illegalWidth width => .illegalWidth width
  | .outsideWindow addr => .outsideWindow addr
  | .misalignedOffset offset => .misalignedOffset offset

/-- One sequencer step: the operation STAGE names (R71). -/
def sequencerTurn (s : State) : Host.Outcome State Fault Refusal :=
  match decodeStage s.stage with
  | .ok i => exec i s
  | .error e => .refused (refusalOf e)

/-- A WAIT line has ended when the STATUS value read has DONE or FAULT set (R78). -/
def waitOver (v : Word) : Bool := v.getLsbD 1 || v.getLsbD 2

/-- One poll of a WAIT line: RD STATUS; the line stays until the value read ends it (R78). -/
def waitTurn (s : State) (rest : List HostLine) : Host.Outcome State Fault Refusal :=
  match exec .rdStatus s with
  | .next t => .next (if waitOver t.readData then { t with program := rest } else t)
  | o => o

/-- One host step: the next line of the host's program, one access (R125). A host with nothing left makes none. -/
def hostTurn (s : State) : Host.Outcome State Fault Refusal :=
  match s.program with
  | [] => .next s
  | .wait :: rest => waitTurn s rest
  | .access a :: rest =>
    match decodeAccess s.platform.regBase a with
    | .ok i => exec i { s with program := rest }
    | .error e => .refused (refusalOf e)

/-- A state whose STAGE is reserved has no meaning: the turn is refused (R75, R76). -/
def unlessReserved (s : State) (turn : Host.Outcome State Fault Refusal) : Host.Outcome State Fault Refusal :=
  if stageCodeReserved s.stage then .refused (.reservedStage s.stage) else turn

/-- One turn. Reset acts whatever the stage (R180); any other turn is refused where STAGE is reserved (log 14). -/
def takeTurn (t : Turn) (s : State) : Host.Outcome State Fault Refusal :=
  match t with
  | .sequencer => unlessReserved s (sequencerTurn s)
  | .host => unlessReserved s (hostTurn s)
  | .reset => .next (resetBlock s)
  | .memWrite addr byte => unlessReserved s (.next (storeByte s addr byte))

/-- Who moves when the schedule is used up: the sequencer while it has a step (weak fairness, R188), else the host while
it has a line left, else nobody: IDLE or FAULTED stay as they are (DESIGN CHOICE, log 2). -/
def defaultTurn (s : State) : Turn :=
  if busy s then .sequencer else if s.program = [] then .sequencer else .host

/-- The next turn and the state it finds: the schedule's first turn taken off it (R125). -/
def nextTurn (s : State) : Turn × State :=
  match s.schedule with
  | [] => (defaultTurn s, s)
  | t :: rest => (t, { s with schedule := rest })

/-- The encoding `word` placed where the next step takes it from: a stage code in STAGE with the sequencer to move, a host
access at the head of the host's program with the host to move (log 20). -/
def placeEncoded (s : State) : Encoded → State
  | .stage code => { s with stage := code, schedule := .sequencer :: s.schedule }
  | .bus word =>
    { s with
      program := .access (accessOfBus s.platform.regBase word) :: s.program
      schedule := .host :: s.schedule }

end Sys2Proof.Machine
end

