-- ==== Sys2Proof/Machine/Step.lean ====
section
/-! DEFINITION. One step of the machine: the next turn is taken (42_host_and_init.md R125). -/

namespace Sys2Proof.Machine

/-- One step. -/
def step (s : State) : Host.Outcome State Fault Refusal := takeTurn (nextTurn s).1 (nextTurn s).2

/-- `s` with the table's instruction (`nbits`, `w`) placed where the next step takes it from (log 12, 20). -/
def State.withFetchWord (s : State) (nbits w : Nat) : State := placeEncoded s (tableEncoding nbits w)

end Sys2Proof.Machine
end

