-- ==== Sys2Proof/Machine/ClosedForm.lean ====
section
/-! DEFINITION. The function the block computes, in the closed form of 00_scope.md R12, and the counts and stage lists of whole operations (44_tail_absorber.md R145, 45_finalizer.md R153). No step uses them: statements compare the machine with them. -/

namespace Sys2Proof.Machine

/-- LEk(m, p, k) as a natural number, the sum of m(p+i)·2^(8i) over i below k (R12). -/
def leSum (m : Nat → Byte) (p : Nat) : Nat → Nat
  | 0 => 0
  | k + 1 => leSum m p k + (m (p + k)).toNat * 2 ^ (8 * k)

/-- LEk(m, p, k) (R12). -/
def leWord (m : Nat → Byte) (p k : Nat) : Word := BitVec.ofNat 64 (leSum m p k)

/-- The variables a, b, c, d, p of R12. -/
structure HashVars where
  a : Word
  b : Word
  c : Word
  d : Word
  p : Nat
deriving DecidableEq, Repr

/-- The body of R12's loop. -/
def hashBlock (rom : Rom) (m : Nat → Byte) (v : HashVars) : HashVars :=
  let w0 := leWord m v.p 8
  let w1 := leWord m (v.p + 8) 8
  let w2 := leWord m (v.p + 16) 8
  let w3 := leWord m (v.p + 24) 8
  { a := v.a ^^^ (rom.p1 * ((w0 ^^^ rotr (w2 + v.d) s1) + w3))
    b := v.b ^^^ (rom.p0 * ((w1 ^^^ rotr (w3 + v.c) s1) + w2))
    c := v.c + (v.a ^^^ rotr w0 s0)
    d := v.d - (v.b ^^^ rotr w1 s2)
    p := v.p + 32 }

/-- R12's "repeat … while len - p >= 32", at most `fuel` times. -/
def hashLoop (rom : Rom) (m : Nat → Byte) (len : Nat) : Nat → HashVars → HashVars
  | 0, v => v
  | fuel + 1, v =>
    let w := hashBlock rom m v
    if 32 ≤ len - w.p then hashLoop rom m len fuel w else w

/-- R12 up to the tail: the initial lanes, and for len > 32 the loop and the fold. ⌊len/32⌋ rounds are enough (R130). -/
def hashHead (rom : Rom) (m : Nat → Byte) (len seed : Word) : HashVars :=
  let start : HashVars :=
    { a := seed, b := len, c := rotr len s1 + seed, d := len ^^^ rotr seed s1, p := 0 }
  if 32 < len.toNat then
    let v := hashLoop rom m len.toNat (len.toNat / 32) start
    { v with
      a := v.a ^^^ (rom.p6 * (rotr v.c s1 + v.d))
      b := v.b ^^^ (rom.p5 * (v.c + rotr v.d s1)) }
  else start

/-- R12's guarded tail, with n fixed before it. -/
def hashTail (rom : Rom) (m : Nat → Byte) (len : Nat) (v : HashVars) : HashVars :=
  let n := len - v.p
  let v := if 25 ≤ n then { v with b := v.b + mux64 (leWord m v.p 8) rom.p4, p := v.p + 8 } else v
  let v := if 17 ≤ n then { v with a := v.a + mux64 (leWord m v.p 8) rom.p3, p := v.p + 8 } else v
  let v := if 9 ≤ n then { v with b := v.b + mux64 (leWord m v.p 8) rom.p2, p := v.p + 8 } else v
  if 1 ≤ n then { v with a := v.a + mux64 (leWord m v.p (len - v.p)) rom.p1 } else v

/-- Hash(m, len, seed): m(i) is the byte at data+i (R12). -/
def hash (rom : Rom) (m : Nat → Byte) (len seed : Word) : Word :=
  let v := hashTail rom m len.toNat (hashHead rom m len seed)
  mux64 (rotr (v.a + v.b) s1) rom.p4 + mix (v.a ^^^ v.b) rom.p0

/-- T(n): the tail stages of a tail of n bytes (R153). -/
def tailSteps (n : Nat) : Nat := (n + 7) / 8

/-- S(len): the sequencer steps of an operation that does not fault (R153). -/
def operationSteps (len : Nat) : Nat :=
  if len ≤ 32 then 1 + tailSteps len + 1 else 1 + len / 32 + 1 + tailSteps (len % 32) + 1

/-- The stages that fire for a tail of n bytes, in order (R145). -/
def tailStages (n : Nat) : List (BitVec 4) :=
  (if 25 ≤ n then [stageTail25] else []) ++ (if 17 ≤ n then [stageTail17] else []) ++
    (if 9 ≤ n then [stageTail9] else []) ++ (if 1 ≤ n then [stageTail1] else [])

/-- The stages an operation on `len` bytes performs, in order (R130, R134, R145). -/
def operationStages (len : Nat) : List (BitVec 4) :=
  if len ≤ 32 then stageInit :: tailStages len ++ [stageFinal]
  else stageInit :: List.replicate (len / 32) stageBlock ++ stageFold :: tailStages (len % 32) ++ [stageFinal]

end Sys2Proof.Machine
end

