-- ==== Sys2Proof/Safety.lean ====
section
/-! DEFINITION. What claims about runs speak of: readable inputs, operations about to run, runs in every order, the read set, and the invariant every step keeps. -/

namespace Sys2Proof.Machine

/-- The `len` bytes from `p` on are readable, byte `i` as `m i` (00_scope.md R12, 20_memory.md R52). -/
def InputReads (s : State) (p len : Nat) (m : Nat → Byte) : Prop := ∀ i < len, memRead s (p + i) = .ok (m i)

/-- Of the `k` bytes from `p` on none has read side effects, byte `j` is refused, and every lower one is read
(60_exceptions.md R164). -/
structure LowestRefused (s : State) (p k j : Nat) : Prop where
  inside : j < k
  ordinary : ∀ i < k, ∀ addr, memRead s (p + i) ≠ .unsaid addr
  refused : memRead s (p + j) = .refused (p + j)
  lower : ∀ i < j, ∃ byte, memRead s (p + i) = .ok byte

/-- The state after a ReadFault at byte `j` in a step that asks for the `k` bytes from `p` on: CAUSE, FAULT_ADDR and STAGE
(60_exceptions.md R160, R163), and the model's own record of the reads, with its draw used up (log 11). -/
def afterReadFault (s : State) (p k j : Nat) : State :=
  { s with
    cause := 1
    faultAddr := BitVec.ofNat 64 (p + j)
    stage := 0xF
    reads := s.reads ++ [faultedReads s p k (p + j)]
    draws := s.draws + 1 }

/-- An accepted operation before its first step (42_host_and_init.md R120). What the host and the schedule hold is left open. -/
structure AtInit (s : State) : Prop where
  platform : s.platform.wf
  stage : s.stage = stageInit
  ptr : s.ptr.toNat < 2 ^ 64
  reads : s.reads = []

/-! ### Runs in every order -/

/-- Nothing but steps of the sequencer and of the host is scheduled (42_host_and_init.md R125). -/
def SequencerAndHostOnly (s : State) : Prop := ∀ turn ∈ s.schedule, turn = .sequencer ∨ turn = .host

/-- Every access the host has still to make is legal (42_host_and_init.md R124). -/
def LegalProgram (s : State) : Prop := ∀ a, HostLine.access a ∈ s.program → a.wf s.platform.regBase = true

/-- The turns that the next `k` steps take. -/
def turnTrace : Nat → State → List Turn
  | 0, _ => []
  | k + 1, s =>
    (nextTurn s).1 :: match step s with
      | .next t => turnTrace k t
      | _ => []

/-- How many of the next `k` steps are the sequencer's. -/
def sequencerSteps (k : Nat) (s : State) : Nat := (turnTrace k s).count .sequencer

/-- The stages that the sequencer performs in the next `k` steps (30_encoding.md R78). -/
def stageTrace : Nat → State → List (BitVec 4)
  | 0, _ => []
  | k + 1, s =>
    (if (nextTurn s).1 = .sequencer then [s.stage] else []) ++ match step s with
      | .next t => stageTrace k t
      | _ => []

/-! ### The read set (20_memory.md R55, R56) -/

/-- From step to step the addresses ascend (R56). Nothing is said of the order within a step. -/
def StepsAscend (reads : List (List Nat)) : Prop := reads.Pairwise fun x y => ∀ a ∈ x, ∀ b ∈ y, a < b

/-- The steps have read exactly the addresses from `first` up to `last`, each once, ascending from step to step. -/
structure ReadsCover (reads : List (List Nat)) (first last : Nat) : Prop where
  covers : ∀ x, (∃ addrs ∈ reads, x ∈ addrs) ↔ first ≤ x ∧ x < last
  once : ∀ addrs ∈ reads, addrs.Nodup
  ascend : StepsAscend reads

/-- A faulting step has read the faulting byte and a subset of the input bytes not read before, each once (R55). -/
structure FaultedStep (s : State) (addrs : List Nat) : Prop where
  once : addrs.Nodup
  faulting : s.faultAddr.toNat ∈ addrs
  inside : ∀ x ∈ addrs, s.ptr.toNat ≤ x ∧ x < s.ptr.toNat + s.n.toNat

/-! ### The invariant -/

/-- STAGE is one of BLOCK to FINAL: INIT is past and the operation runs. -/
def pastInit (s : State) : Bool := 2 ≤ s.stage.toNat && s.stage.toNat ≤ 8

/-- How many bytes the operation has read: LEN_L − N (10_state.md R26). -/
def consumed (s : State) : Nat := s.lenL.toNat - s.n.toNat

/-- N, PTR and LEN_L of an operation past INIT: N counts the bytes left, and the input fits the space (R26, R121). -/
structure CountsOk (s : State) : Prop where
  left : s.n.toNat ≤ s.lenL.toNat
  start : consumed s ≤ s.ptr.toNat
  fits : 0 < s.lenL.toNat → s.ptr.toNat + s.n.toNat ≤ 2 ^ s.platform.addrW

/-- The range of N in each stage past INIT (R130, R140 to R144, R150). -/
structure StageCounts (s : State) : Prop where
  block : s.stage = stageBlock → 32 ≤ s.n.toNat ∧ 32 < s.lenL.toNat ∧ consumed s % 32 = 0
  fold : s.stage = stageFold → s.n.toNat = s.lenL.toNat % 32 ∧ 32 < s.lenL.toNat
  tail25 : s.stage = stageTail25 → 25 ≤ s.n.toNat ∧ s.n.toNat ≤ 32 ∧ (s.n.toNat = 32 → s.lenL.toNat = 32)
  tail17 : s.stage = stageTail17 → 17 ≤ s.n.toNat ∧ s.n.toNat ≤ 24
  tail9 : s.stage = stageTail9 → 9 ≤ s.n.toNat ∧ s.n.toNat ≤ 16
  tail1 : s.stage = stageTail1 → 1 ≤ s.n.toNat ∧ s.n.toNat ≤ 8
  final : s.stage = stageFinal → s.n.toNat = 0

/-- The invariant of the machine. It holds after reset on any legal platform, and every step keeps it. -/
structure Inv (s : State) : Prop where
  /-- The parameters lie in their ranges (R3). -/
  platform : s.platform.wf
  /-- The data space keeps its canonical form. -/
  memory : Memory.wf s.mem
  /-- MEM_READABLE lies below 2^ADDR_W (93_implementation_defined.md Part P). -/
  memoryBelow : ∀ cell ∈ s.mem, cell.1 < 2 ^ s.platform.addrW
  /-- The draws are in canonical form, at readable addresses (R59). -/
  drawn : Memory.wf s.drawn
  drawnReadable : ∀ cell ∈ s.drawn, s.mem.read cell.1 ≠ none
  /-- No reserved stage code (R76). -/
  stage : stageCodeReserved s.stage = false
  /-- DONE only in IDLE (R120, R151). -/
  done : s.done = true → s.stage = stageIdle
  /-- CAUSE is NONE, READ_FAULT or RANGE_FAULT, and is not NONE exactly in FAULTED (R160, R163, R165). -/
  cause : s.cause.toNat ≤ 2
  faulted : s.stage = stageFaulted ↔ s.cause ≠ 0
  /-- FAULT_ADDR is 0 whenever CAUSE is 0 (R160). -/
  faultAddr : s.cause = 0 → s.faultAddr = 0
  /-- Before INIT's step PTR holds a 64-bit DATA_ADDR and nothing is read (R120). -/
  init : s.stage = stageInit → s.ptr.toNat < 2 ^ 64 ∧ s.reads = []
  /-- Past INIT, and in IDLE with DONE, PTR and N bracket the bytes read: each input byte below PTR once, ascending from step to step
  (R26, R55, R56). -/
  counts : pastInit s = true ∨ s.done = true → CountsOk s
  reads : pastInit s = true ∨ s.done = true →
    ReadsCover s.reads (s.ptr.toNat - consumed s) s.ptr.toNat
  /-- Nothing has been read but readable bytes, and the faulting one (R51, R55). -/
  readable : ∀ addrs ∈ s.reads, ∀ x ∈ addrs, s.mem.read x = none →
    s.cause = FaultCause.readFault.code ∧ x = s.faultAddr.toNat
  /-- N in the range of its stage. -/
  stageCounts : StageCounts s
  /-- A completed operation has read everything (R55, R151). -/
  complete : s.done = true → s.n.toNat = 0
  /-- After a ReadFault PTR and N are as the faulting stage found them, FAULT_ADDR is an input byte not read before, and the
  events are those of the steps before and of the faulting one (R55, R163, log 11). -/
  readFault : s.cause = FaultCause.readFault.code →
    CountsOk s ∧ s.ptr.toNat ≤ s.faultAddr.toNat ∧ s.faultAddr.toNat < s.ptr.toNat + s.n.toNat ∧
      ∃ before last, s.reads = before ++ [last] ∧
        ReadsCover before (s.ptr.toNat - consumed s) s.ptr.toNat ∧ FaultedStep s last
  /-- After a RangeFault nothing is read, and FAULT_ADDR is PTR (R121, R162). -/
  rangeFault : s.cause = FaultCause.rangeFault.code →
    s.reads = [] ∧ s.faultAddr.toNat = s.ptr.toNat ∧ 0 < s.lenL.toNat

end Sys2Proof.Machine
end

