-- ==== Sys2Proof/Certificates/Slice0/Obligations.lean ====
section
/-! DEFINITION. The statements for the provers. Each docstring names the rules of spec/ a statement formalises. A statement about every state covers every value of the parameters PRIME, ADDR_W, REG_BASE, MEM_READABLE and M, which State holds. -/

open Sys2Proof Sys2Proof.Machine

/-! ### Encodings -/

/-- Decoding an encoded instruction gives it back, through the bus word and through the platform access in a window at any
base (30_encoding.md R70, R74, R80). The layout of the bus word is the model's choice (log 13). -/
def Obligations.DecodeOfEncodeIsTheInstruction : Prop :=
  ∀ (base : Nat) (i : Instr),
    decode (encode i) = .ok i ∧
      ∀ a, encodeAccess base i = some a → a.wf base = true ∧ decodeAccess base a = .ok i

/-- An encoding has an instruction exactly when it is legal, and is that instruction's encoding but for the data bits of a
read, which mean nothing (30_encoding.md R74, R75). The layout of the bus word is the model's choice (log 13). -/
def Obligations.LegalEncodingsAreExactlyTheDecoded : Prop :=
  ∀ e : Encoded,
    (e.wf = true ↔ ∃ i, decode e = .ok i) ∧
      ∀ i, decode e = .ok i →
        encode i = e ∨
          ∃ w, e = .bus w ∧ (busKey w).getLsbD 6 = false ∧ encode i = .bus (packBus (busKey w) 0)

/-- Some encodings written out from the tables of 30_encoding.md R70 and R74. -/
def Obligations.WrittenEncodingsDecode : Prop :=
  decode (.stage 0b0001#4) = .ok .init ∧ decode (.stage 0b0010#4) = .ok .block ∧
    decode (.stage 0b0111#4) = .ok .tail1 ∧ decode (.stage 0b1111#4) = .ok .faulted ∧
    decode (.bus (packBus 0b1000000#7 1)) = .ok (.start 1) ∧
    decode (.bus (packBus 0b1011000#7 33)) = .ok (.wrLen 33) ∧
    decode (.bus (packBus 0b0101000#7 0)) = .ok .rdDigest

/-- A platform access that is not 64 bits wide, lies outside the window, or is not 8-byte aligned there is refused by the
host's turn, and every other access has its instruction (42_host_and_init.md R124; which refusal names an access that
breaks several conditions is the model's choice, log 16). -/
def Obligations.IllegalAccessesAreRefused : Prop :=
  ∀ (s : State) (a : BusAccess) (rest : List HostLine) (ts : List Turn),
    stageCodeReserved s.stage = false → s.program = .access a :: rest → s.schedule = .host :: ts →
      (a.width ≠ 64 ∨ a.addr < s.platform.regBase ∨ s.platform.regBase + 0x40 ≤ a.addr ∨
          (a.addr - s.platform.regBase) % 8 ≠ 0 →
        step s = .refused (.illegalWidth a.width) ∨ step s = .refused (.outsideWindow a.addr) ∨
          step s = .refused (.misalignedOffset (a.addr - s.platform.regBase))) ∧
      (a.width = 64 → s.platform.regBase ≤ a.addr → a.addr < s.platform.regBase + 0x40 →
          (a.addr - s.platform.regBase) % 8 = 0 →
        ∃ i t, decodeAccess s.platform.regBase a = .ok i ∧ step s = .next t)

/-- No step makes STAGE reserved, it is not reserved after reset, and a state with a reserved code is refused by every turn
but reset (30_encoding.md R76, which marks the first as its own inference; that reset still acts is log 14). -/
def Obligations.ReservedStagesAreRefusedAndUnreachable : Prop :=
  (∀ s t : State, stageCodeReserved s.stage = false → step s = .next t → stageCodeReserved t.stage = false) ∧
    stageCodeReserved State.reset.stage = false ∧
    ∀ s : State, 9 ≤ s.stage.toNat → s.stage.toNat ≤ 14 → (nextTurn s).1 ≠ .reset →
      step s = .refused (.reservedStage s.stage)

/-! ### Steps -/

/-- A sequencer step performs the operation that STAGE names (30_encoding.md R71). That it moves when the schedule is
empty is the model's choice (log 2). -/
def Obligations.SequencerStepRunsTheStage : Prop :=
  ∀ (s : State) (i : Instr), decodeStage s.stage = .ok i →
    (∀ rest, s.schedule = .sequencer :: rest → step s = exec i { s with schedule := rest }) ∧
      (s.schedule = [] → busy s = true ∨ s.program = [] → step s = exec i s)

/-- A host step performs the access of the program's next line and goes on to the line after it (30_encoding.md R74, R78).
That the host moves when the schedule is empty and nothing runs is the model's choice (log 2). -/
def Obligations.HostStepRunsTheAccess : Prop :=
  ∀ (s : State) (a : BusAccess) (rest : List HostLine) (i : Instr),
    stageCodeReserved s.stage = false → s.program = .access a :: rest →
      decodeAccess s.platform.regBase a = .ok i →
        (∀ ts, s.schedule = .host :: ts → step s = exec i { s with program := rest, schedule := ts }) ∧
          (s.schedule = [] → busy s = false → step s = exec i { s with program := rest })

/-- A WAIT line reads STATUS, and is over when the value read has bit 1 or bit 2 set (30_encoding.md R78). -/
def Obligations.WaitLinePollsStatus : Prop :=
  ∀ (s : State) (rest : List HostLine) (ts : List Turn),
    stageCodeReserved s.stage = false → s.program = .wait :: rest → s.schedule = .host :: ts →
      step s = .next
        { s with
          schedule := ts
          readData := status s
          program := if (status s).getLsbD 1 || (status s).getLsbD 2 then rest else .wait :: rest }

/-- With the invariant and ordinary memory the sequencer's turn is neither a fault nor a refusal: in INIT to FINAL its one
enabled step (30_encoding.md R71), in IDLE and FAULTED, where R71 gives no step, a turn that changes nothing (the model's
choice, log 1). -/
def Obligations.SequencerTurnAlwaysMoves : Prop :=
  ∀ s : State, Inv s → (∀ addr, s.platform.hasSideEffects addr = false) → ∃ t, sequencerTurn s = .next t

/-! ### Reset and the invariant -/

/-- Reset, in any state: every register at its reset value, the constant ROM unchanged, and STATUS reads 0
(70_reset_and_hazards.md R180). -/
def Obligations.ResetSetsEveryRegister : Prop :=
  ∀ (s : State) (ts : List Turn), s.schedule = .reset :: ts →
    ∃ t, step s = .next t ∧
      (t.a = 0 ∧ t.b = 0 ∧ t.c = 0 ∧ t.d = 0 ∧ t.ptr = 0 ∧ t.n = 0 ∧ t.lenL = 0 ∧ t.seedL = 0) ∧
      (t.digest = 0 ∧ t.faultAddr = 0 ∧ t.dataAddr = 0 ∧ t.len = 0 ∧ t.seed = 0) ∧
      (t.cause = 0 ∧ t.done = false ∧ t.stage = 0x0) ∧ t.platform.rom = s.platform.rom ∧ status t = 0

/-- What reset leaves outside the block, and that it ends the model's own records of the aborted operation: the model's
choice (log 17; 70_reset_and_hazards.md names the registers and the ROM only). -/
def Obligations.ResetKeepsWhatIsOutside : Prop :=
  ∀ (s : State) (ts : List Turn), s.schedule = .reset :: ts →
    ∃ t, step s = .next t ∧ t.platform = s.platform ∧ t.mem = s.mem ∧ t.program = s.program ∧ t.schedule = ts ∧
      t.readData = s.readData ∧ t.draws = s.draws ∧ t.reads = [] ∧ t.drawn = []

/-- The invariant holds after reset on every platform with legal parameters and a data space in its canonical form, and so
at `State.reset` (10_state.md R21, 70_reset_and_hazards.md R180; the parameters of `State.reset` are the model's choice,
log 4, 5, 6, 7, 10). -/
def Obligations.InvariantHoldsAfterReset : Prop :=
  (∀ (p : Platform) (m : Memory), p.wf → Memory.wf m → (∀ cell ∈ m, cell.1 < 2 ^ p.addrW) →
      Inv (State.resetOn p m)) ∧
    Inv State.reset

/-- Every step keeps the invariant: legal stage codes, DONE only in IDLE, CAUSE and FAULT_ADDR as the faults left them, PTR
and N bracketing the bytes read once each and ascending from step to step, N in the range of its stage, a completed
operation with its whole input read, memory in canonical form (10_state.md R26, R30; 20_memory.md R55, R56; 30_encoding.md
R76; 60_exceptions.md R160). The record of the reads, one set for each step, is the model's own, and what a faulting step
has read is a free choice among what R55 allows (log 11). -/
def Obligations.EveryStepKeepsTheInvariant : Prop :=
  ∀ s t : State, Inv s → step s = .next t → Inv t

/-! ### The stages -/

/-- IDLE and FAULTED: the sequencer has no step, so nothing changes (30_encoding.md R71; a turn that changes nothing is how
the model says it, log 1). -/
def Obligations.IdleAndFaultedChangeNothing : Prop :=
  ∀ s : State, exec .idle s = .next s ∧ exec .faulted s = .next s

/-- INIT: the range check, the four lanes, N and the next stage; nothing else changes (42_host_and_init.md R121,
60_exceptions.md R162). -/
def Obligations.InitChecksTheRangeAndSetsTheLanes : Prop :=
  ∀ s : State,
    (s.lenL.toNat = 0 ∨ s.ptr.toNat + s.lenL.toNat ≤ 2 ^ s.platform.addrW →
      exec .init s = .next
        { s with
          a := s.seedL
          b := s.lenL
          c := rotr s.lenL 17 + s.seedL
          d := s.lenL ^^^ rotr s.seedL 17
          n := s.lenL
          stage := if 32 < s.lenL.toNat then 0x2 else dispatch s.lenL }) ∧
    (0 < s.lenL.toNat → 2 ^ s.platform.addrW < s.ptr.toNat + s.lenL.toNat →
      exec .init s = .next
        { s with cause := 2, faultAddr := BitVec.ofNat 64 s.ptr.toNat, stage := 0xF })

/-- BLOCK: the six mixing lines on the four little-endian words at PTR, PTR and N, and the next stage, or a ReadFault at the
lowest refused byte; nothing else changes (43_block_mixer.md R131). `reads` is the model's own record (log 11). -/
def Obligations.BlockMixesThirtyTwoBytes : Prop :=
  ∀ s : State,
    (∀ m : Nat → Byte, InputReads s s.ptr.toNat 32 m →
      let w0 := leWord m 0 8
      let w1 := leWord m 8 8
      let w2 := leWord m 16 8
      let w3 := leWord m 24 8
      let d02 := w0 ^^^ rotr (w2 + s.d) 17
      let c13 := w1 ^^^ rotr (w3 + s.c) 17
      exec .block s = .next
        { s with
          c := s.c + (s.a ^^^ rotr w0 41)
          d := s.d - (s.b ^^^ rotr w1 31)
          a := s.a ^^^ (s.platform.rom.p1 * (d02 + w3))
          b := s.b ^^^ (s.platform.rom.p0 * (c13 + w2))
          ptr := s.ptr + 32
          n := s.n - 32
          stage := if 32 ≤ (s.n - 32).toNat then 0x2 else 0x3
          reads := s.reads ++ [List.range' s.ptr.toNat 32] }) ∧
    ∀ j, LowestRefused s s.ptr.toNat 32 j → exec .block s = .next (afterReadFault s s.ptr.toNat 32 j)

/-- FOLD: lanes C and D folded into A and B with the low-half multiply, and the next stage; nothing else changes
(43_block_mixer.md R133). -/
def Obligations.FoldFoldsTheAuxiliaryLanes : Prop :=
  ∀ s : State,
    exec .fold s = .next
      { s with
        a := s.a ^^^ (s.platform.rom.p6 * (rotr s.c 17 + s.d))
        b := s.b ^^^ (s.platform.rom.p5 * (s.c + rotr s.d 17))
        stage := dispatch s.n }

/-- TAIL25, TAIL17 and TAIL9: one lane gains mux64 of the little-endian word at PTR and the stage's constant, PTR and N move
by 8, the next stage is dispatched on the new N; or a ReadFault at the lowest refused byte; nothing else changes
(44_tail_absorber.md R141, R142, R143). `reads` is the model's own record (log 11). -/
def Obligations.FullTailStagesAbsorbEightBytes : Prop :=
  ∀ s : State,
    (∀ m : Nat → Byte, InputReads s s.ptr.toNat 8 m →
      let w := leWord m 0 8
      let moved : State :=
        { s with
          ptr := s.ptr + 8
          n := s.n - 8
          stage := dispatch (s.n - 8)
          reads := s.reads ++ [List.range' s.ptr.toNat 8] }
      exec .tail25 s = .next { moved with b := s.b + mux64 w s.platform.rom.p4 } ∧
        exec .tail17 s = .next { moved with a := s.a + mux64 w s.platform.rom.p3 } ∧
        exec .tail9 s = .next { moved with b := s.b + mux64 w s.platform.rom.p2 }) ∧
    ∀ j, LowestRefused s s.ptr.toNat 8 j →
      exec .tail25 s = .next (afterReadFault s s.ptr.toNat 8 j) ∧
        exec .tail17 s = .next (afterReadFault s s.ptr.toNat 8 j) ∧
        exec .tail9 s = .next (afterReadFault s s.ptr.toNat 8 j)

/-- TAIL1: A gains mux64 of the last N bytes and p1, PTR moves by N, N becomes 0 and FINAL is next; or a ReadFault at the
lowest refused byte; nothing else changes (44_tail_absorber.md R144). `reads` is the model's own record (log 11). -/
def Obligations.LastTailStageAbsorbsTheRest : Prop :=
  ∀ s : State, 1 ≤ s.n.toNat → s.n.toNat ≤ 8 →
    (∀ m : Nat → Byte, InputReads s s.ptr.toNat s.n.toNat m →
      exec .tail1 s = .next
        { s with
          a := s.a + mux64 (leWord m 0 s.n.toNat) s.platform.rom.p1
          ptr := s.ptr + s.n.setWidth 65
          n := 0
          stage := 0x8
          reads := s.reads ++ [List.range' s.ptr.toNat s.n.toNat] }) ∧
    ∀ j, LowestRefused s s.ptr.toNat s.n.toNat j →
      exec .tail1 s = .next (afterReadFault s s.ptr.toNat s.n.toNat j)

/-- tail64 with a count of 0 or above 8 is outside the domain: TAIL1 refuses it (40_byte_loader.md R104, log 22). -/
def Obligations.TailCountOutsideDomainIsRefused : Prop :=
  ∀ s : State, s.n.toNat = 0 ∨ 8 < s.n.toNat → exec .tail1 s = .refused (.tailCount s.n.toNat)

/-- FINAL: the digest, DONE and IDLE; nothing else changes (45_finalizer.md R150). -/
def Obligations.FinalFoldsTheDigest : Prop :=
  ∀ s : State,
    exec .final s = .next
      { s with
        digest := mux64 (rotr (s.a + s.b) 17) s.platform.rom.p4 + mix (s.a ^^^ s.b) s.platform.rom.p0
        done := true
        stage := 0x0 }

/-- A reading stage that would read memory with read side effects stops: the spec says nothing of it (20_memory.md R58,
log 10). `k` is the number of bytes the stage reads. -/
def Obligations.SideEffectReadsStopTheModel : Prop :=
  ∀ (s : State) (i : Instr) (k : Nat),
    (i = .block ∧ k = 32) ∨ ((i = .tail25 ∨ i = .tail17 ∨ i = .tail9) ∧ k = 8) ∨
        (i = .tail1 ∧ k = s.n.toNat ∧ 1 ≤ k ∧ k ≤ 8) →
      ∀ j < k, memRead s (s.ptr.toNat + j) = .unsaid (s.ptr.toNat + j) →
        ∃ addr, s.ptr.toNat ≤ addr ∧ addr < s.ptr.toNat + k ∧ exec i s = .fault (.sideEffectRead addr)

/-- Faults are precise: a stage that enters FAULTED changes CAUSE, FAULT_ADDR and STAGE only, with code 1 for a reading stage
and 2 for INIT (60_exceptions.md R160, R163). `reads` is the model's own record, `draws` the index of its free values
(log 11). -/
def Obligations.FaultsArePrecise : Prop :=
  ∀ (s t : State) (i : Instr), s.stage ≠ stageFaulted → exec i s = .next t → t.stage = stageFaulted →
    t = { s with cause := t.cause, faultAddr := t.faultAddr, stage := 0xF, reads := t.reads, draws := t.draws } ∧
      ((i = .init ∧ t.cause = 2 ∧ t.faultAddr = s.ptr.setWidth 64 ∧ t.reads = s.reads ∧ t.draws = s.draws) ∨
        ((i = .block ∨ i = .tail25 ∨ i = .tail17 ∨ i = .tail9 ∨ i = .tail1) ∧ t.cause = 1))

/-! ### The host's accesses -/

/-- START: accepted in IDLE with bit 0 set, and then exactly PTR, LEN_L, SEED_L, DONE and STAGE are written; else no effect
(42_host_and_init.md R120). `reads` and `drawn` are the model's own records of the operation (log 8, 11). -/
def Obligations.StartLatchesTheArguments : Prop :=
  ∀ (s : State) (v : Word),
    (v.getLsbD 0 = true → s.stage = 0x0 →
      exec (.start v) s = .next
        { s with
          ptr := s.dataAddr.setWidth 65
          lenL := s.len
          seedL := s.seed
          done := false
          stage := 0x1
          reads := []
          drawn := [] }) ∧
    (v.getLsbD 0 = false ∨ s.stage ≠ 0x0 → exec (.start v) s = .next s)

/-- The writes of the argument registers, in any stage, and the ignored writes of the read-only ones; nothing else changes
(42_host_and_init.md R123, 10_state.md R31, R32). -/
def Obligations.HostWritesHaveTheirEffects : Prop :=
  ∀ (s : State) (v : Word),
    (exec (.wrDataAddr v) s = .next { s with dataAddr := v } ∧ exec (.wrLen v) s = .next { s with len := v } ∧
        exec (.wrSeed v) s = .next { s with seed := v }) ∧
      exec (.wrStatusIgnored v) s = .next s ∧ exec (.wrDigestIgnored v) s = .next s ∧
      exec (.wrCauseIgnored v) s = .next s ∧ exec (.wrFaultAddrIgnored v) s = .next s

/-- The reads return the registers, and change nothing of the block; `readData` is where the model holds the value returned
(42_host_and_init.md R123, log 3). -/
def Obligations.HostReadsReturnTheRegisters : Prop :=
  ∀ s : State,
    exec .rdCtrl s = .next { s with readData := 0 } ∧
      exec .rdStatus s = .next { s with readData := status s } ∧
      exec .rdDataAddr s = .next { s with readData := s.dataAddr } ∧
      exec .rdLen s = .next { s with readData := s.len } ∧
      exec .rdSeed s = .next { s with readData := s.seed } ∧
      exec .rdDigest s = .next { s with readData := s.digest } ∧
      exec .rdCause s = .next { s with readData := BitVec.ofNat 64 s.cause.toNat } ∧
      exec .rdFaultAddr s = .next { s with readData := s.faultAddr }

/-- STATUS bit by bit, its ignored write, and the exclusion of BUSY, DONE and FAULT in every state with the invariant
(10_state.md R30). -/
def Obligations.StatusHasItsFields : Prop :=
  ∀ s : State,
    ((status s).getLsbD 0 = decide (1 ≤ s.stage.toNat ∧ s.stage.toNat ≤ 8) ∧ (status s).getLsbD 1 = s.done ∧
        (status s).getLsbD 2 = decide (s.stage = 0xF) ∧
        (∀ j < 4, (status s).getLsbD (8 + j) = s.stage.getLsbD j) ∧
        ∀ j, 3 ≤ j ∧ j ≤ 7 ∨ 12 ≤ j → (status s).getLsbD j = false) ∧
      (∀ v, exec (.wrStatusIgnored v) s = .next s) ∧
      (Inv s → ¬((status s).getLsbD 0 = true ∧ (status s).getLsbD 1 = true) ∧
        ¬((status s).getLsbD 0 = true ∧ (status s).getLsbD 2 = true) ∧
        ¬((status s).getLsbD 1 = true ∧ (status s).getLsbD 2 = true))

/-! ### The loader and the mixing primitives -/

/-- LoadLE assembles k bytes little-endian, at any alignment; the bits above are 0 (40_byte_loader.md R100, 20_memory.md R53,
R54). -/
def Obligations.LoadIsLittleEndian : Prop :=
  ∀ (s : State) (p k : Nat) (m : Nat → Byte), k ≤ 8 → InputReads s p k m →
    ∃ v, loadLE s p k = .ok v ∧ v.toNat = leSum m 0 k ∧
      (∀ i < k, ∀ j < 8, v.getLsbD (8 * i + j) = (m i).getLsbD j) ∧ ∀ j, 8 * k ≤ j → v.getLsbD j = false

/-- LoadLE reads no byte but its k: what it gives depends on those bytes only, so tail64 never looks past its n bytes
(40_byte_loader.md R100, R104). -/
def Obligations.LoadReadsOnlyItsBytes : Prop :=
  ∀ (s t : State) (p k : Nat), (∀ i < k, memRead s (p + i) = memRead t (p + i)) →
    loadLE s p k = loadLE t p k ∧ tail64 s p k = tail64 t p k

/-- A load of ordinary memory faults at the lowest refused address (60_exceptions.md R164), and gives a value exactly when
every byte is readable (40_byte_loader.md R101). -/
def Obligations.LoadFaultsAtTheLowestRefusedByte : Prop :=
  ∀ (s : State) (p k : Nat),
    (∀ j, LowestRefused s p k j → loadLE s p k = .refused (p + j)) ∧
      ((∃ v, loadLE s p k = .ok v) ↔ ∀ i < k, ∃ byte, memRead s (p + i) = .ok byte)

/-- The loader's widths, and tail64 of 8 bytes as load64 (40_byte_loader.md R101 to R104). -/
def Obligations.LoaderWidths : Prop :=
  ∀ (s : State) (p : Nat),
    load64 s p = loadLE s p 8 ∧ load32 s p = loadLE s p 4 ∧ load16 s p = loadLE s p 2 ∧ load8 s p = loadLE s p 1 ∧
      tail64 s p 8 = some (load64 s p) ∧ tail64 s p 0 = none ∧
      (∀ n, 1 ≤ n → n ≤ 8 → tail64 s p n = some (loadLE s p n)) ∧ ∀ n, 8 < n → tail64 s p n = none

/-- rotr: the two-shift formula, and bit i of the result is bit (i + s) mod 64 of the argument (41_mixing_primitives.md R110). -/
def Obligations.RotrRotatesRight : Prop :=
  ∀ (v : Word) (s : Nat), s ≤ 63 →
    (s = 0 → rotr v s = v) ∧ (1 ≤ s → rotr v s = (v >>> s) ||| (v <<< (64 - s))) ∧
      ∀ i < 64, (rotr v s).getLsbD i = v.getLsbD ((i + s) % 64)

/-- mix: the low product xor its rotation by 41; 0 for v = 0 (41_mixing_primitives.md R111). -/
def Obligations.MixScrambles : Prop :=
  ∀ v p : Word,
    mix v p = BitVec.ofNat 64 (v.toNat * p.toNat) ^^^ rotr (BitVec.ofNat 64 (v.toNat * p.toNat)) 41 ∧ mix 0 p = 0

/-- mux64: the high half of the exact product xor its low half, and the rule's corner cases (41_mixing_primitives.md R112). -/
def Obligations.MuxFoldsTheExactProduct : Prop :=
  ∀ v p : Word,
    mux64 v p =
        BitVec.ofNat 64 (v.toNat * p.toNat / 2 ^ 64) ^^^ BitVec.ofNat 64 (v.toNat * p.toNat % 2 ^ 64) ∧
      mux64 0 p = 0 ∧ mux64 1 p = p ∧ (1 ≤ p.toNat → mux64 0xFFFFFFFFFFFFFFFF p = 0xFFFFFFFFFFFFFFFF) ∧
      mux64 (BitVec.ofNat 64 (2 ^ 63)) 2 = 1

/-- The four-partial-product form gives the exact product (41_mixing_primitives.md R113). -/
def Obligations.PartialProductsGiveTheExactProduct : Prop :=
  ∀ v p : Word, (mul128Partial v p).toNat = v.toNat * p.toNat ∧ mul128Partial v p = mul128 v p

/-- The tail dispatch by its closed ranges (44_tail_absorber.md R140), so that 8, 16, 24 and 32 take the lower range (R146). -/
def Obligations.DispatchFollowsTheRanges : Prop :=
  ∀ n : Word,
    (25 ≤ n.toNat → dispatch n = 0x4) ∧ (17 ≤ n.toNat → n.toNat ≤ 24 → dispatch n = 0x5) ∧
      (9 ≤ n.toNat → n.toNat ≤ 16 → dispatch n = 0x6) ∧ (1 ≤ n.toNat → n.toNat ≤ 8 → dispatch n = 0x7) ∧
      (n.toNat = 0 → dispatch n = 0x8)

/-! ### What steps leave alone -/

/-- The block never stores: no instruction changes a byte of the data space or which addresses are readable, and none but
START changes what MemRead answers (20_memory.md R50, R51, R59). START ends the draws of the operation before, so that
MemRead then answers M's byte where it answered a draw (log 8). -/
def Obligations.NoInstructionStores : Prop :=
  ∀ (i : Instr) (s t : State), exec i s = .next t →
    (∀ addr, t.mem.read addr = s.mem.read addr) ∧ t.mem = s.mem ∧
      ((∀ v, i ≠ .start v) → ∀ addr, memRead t addr = memRead s addr) ∧
      ∀ v, i = .start v →
        (∀ addr, memRead t addr = memRead s addr) ∨ ∀ addr, memRead t addr = memRead { s with drawn := [] } addr

/-- No step changes the constant ROM or another parameter, and none changes which addresses are readable; a byte of the data
space changes only by a store from outside (00_scope.md R4, 10_state.md R27, 20_memory.md R51, R52). -/
def Obligations.ParametersAndReadableSetNeverChange : Prop :=
  ∀ s t : State, step s = .next t →
    t.platform = s.platform ∧ (∀ addr, t.mem.read addr = none ↔ s.mem.read addr = none) ∧
      ∀ addr, t.mem.read addr ≠ s.mem.read addr → ∃ byte, (nextTurn s).1 = .memWrite addr byte

/-- The stages that write each lane, and no other instruction does; a lane keeps its value through every other one
(10_state.md R22, R23). -/
def Obligations.LanesAreWrittenByTheirStages : Prop :=
  ∀ (i : Instr) (s t : State), exec i s = .next t →
    (i ∉ [Instr.init, .block, .fold, .tail17, .tail1] → t.a = s.a) ∧
      (i ∉ [Instr.init, .block, .fold, .tail25, .tail9] → t.b = s.b) ∧
      (i ∉ [Instr.init, .block] → t.c = s.c ∧ t.d = s.d)

/-- DIGEST changes only in FINAL and at reset; CAUSE and FAULT_ADDR only at a fault and at reset (10_state.md R32). -/
def Obligations.ResultRegistersChangeOnlyAtTheirEvents : Prop :=
  ∀ s t : State, step s = .next t → (nextTurn s).1 ≠ .reset →
    (t.digest ≠ s.digest → (nextTurn s).1 = .sequencer ∧ s.stage = stageFinal ∧ t.done = true) ∧
      (t.cause ≠ s.cause ∨ t.faultAddr ≠ s.faultAddr →
        (nextTurn s).1 = .sequencer ∧ s.stage ≠ stageFaulted ∧ t.stage = stageFaulted)

/-- FAULTED is sticky: every turn but reset leaves STAGE, CAUSE, FAULT_ADDR, DONE, DIGEST and the hidden registers, START
among them; reset clears STAGE, CAUSE and FAULT_ADDR (60_exceptions.md R165). DONE is 0 there in every state with the
invariant. -/
def Obligations.FaultedIsSticky : Prop :=
  ∀ s t : State, s.stage = stageFaulted → step s = .next t →
    ((nextTurn s).1 ≠ .reset →
      t.stage = stageFaulted ∧ t.cause = s.cause ∧ t.faultAddr = s.faultAddr ∧ t.done = s.done ∧ t.digest = s.digest ∧
        t.a = s.a ∧ t.b = s.b ∧ t.c = s.c ∧ t.d = s.d ∧ t.ptr = s.ptr ∧ t.n = s.n ∧ t.lenL = s.lenL ∧ t.seedL = s.seedL) ∧
      ((nextTurn s).1 = .reset → t.stage = stageIdle ∧ t.cause = 0 ∧ t.faultAddr = 0) ∧
      (Inv s → t.done = false)

/-- STAGE leaves IDLE only by an accepted START, the host's next access with bit 0 of its data set, which latches the
arguments; and a running stage moves only by the sequencer or by reset (30_encoding.md R71, 10_state.md R25,
42_host_and_init.md R120). -/
def Obligations.StageMovesOnlyByItsAgents : Prop :=
  ∀ s t : State, step s = .next t → t.stage ≠ s.stage →
    (s.stage = stageIdle →
      (nextTurn s).1 = .host ∧
        (∃ a rest v, s.program = .access a :: rest ∧ decodeAccess s.platform.regBase a = .ok (.start v) ∧
          v.getLsbD 0 = true) ∧
        t.stage = stageInit ∧ t.ptr = s.dataAddr.setWidth 65 ∧ t.lenL = s.len ∧ t.seedL = s.seed ∧ t.done = false) ∧
      (s.stage ≠ stageIdle → (nextTurn s).1 = .sequencer ∨ (nextTurn s).1 = .reset)

/-- Host accesses do not disturb a running operation, and the order of a host access and a sequencer step does not matter
to the block: the two orders reach the same state, but for the value a read returned, and the access leaves every register
the operation reads (42_host_and_init.md R125, 10_state.md R31, 70_reset_and_hazards.md R184, R186). Only a START request
that meets FINAL is shut out: after FINAL it is accepted, before FINAL ignored (42_host_and_init.md R120). -/
def Obligations.HostAccessesCommuteWithStages : Prop :=
  ∀ (s t u : State) (i j : Instr) (a : BusAccess),
    busy s = true → (s.stage = stageFinal → ∀ v, i = .start v → v.getLsbD 0 = false) → decodeStage s.stage = .ok j →
      decodeAccess s.platform.regBase a = .ok i → exec i s = .next t → exec j s = .next u →
        (t.a = s.a ∧ t.b = s.b ∧ t.c = s.c ∧ t.d = s.d ∧ t.ptr = s.ptr ∧ t.n = s.n ∧ t.lenL = s.lenL ∧
            t.seedL = s.seedL ∧ t.stage = s.stage ∧ t.done = s.done ∧ t.mem = s.mem ∧ t.drawn = s.drawn) ∧
          ∃ x y, exec j t = .next x ∧ exec i u = .next y ∧ { x with readData := y.readData } = y

/-! ### Memory and the outside -/

/-- A store that changes a readable byte while an operation runs makes that byte a draw, any byte, for the operation, and
changes no other byte and no register (20_memory.md R59, 70_reset_and_hazards.md R183). What counts as a change, at any
readable address, is log 9; the draw's form, a free value at a counter, is log 8, and this holds for every value of the
counter; that the store takes effect at once is log 23. -/
def Obligations.StoreDuringAnOperationMakesADraw : Prop :=
  ∀ (s : State) (addr : Nat) (byte old : Byte) (ts : List Turn),
    busy s = true → s.schedule = .memWrite addr byte :: ts → s.mem.read addr = some old → old ≠ byte →
      ∃ t, step s = .next t ∧
        (addr < 2 ^ s.platform.addrW → s.platform.hasSideEffects addr = false →
          memRead t addr = .ok (Config.drawByte s.draws)) ∧
        (∀ x, x ≠ addr → memRead t x = memRead s x ∧ t.mem.read x = s.mem.read x) ∧
        t.mem.read addr = some byte ∧
        t = { s with mem := t.mem, drawn := t.drawn, draws := t.draws, schedule := ts }

/-- Input visibility: what the host stored before START is what the operation reads, with no draw left over, and a store
while nothing runs is M's new byte (20_memory.md R62 item 1; that a store takes effect at once is log 23). -/
def Obligations.StoresBeforeStartAreVisible : Prop :=
  ∀ (s : State) (addr : Nat) (byte old : Byte) (v : Word),
    s.stage = stageIdle → v.getLsbD 0 = true → s.mem.read addr = some old → addr < 2 ^ s.platform.addrW →
      s.platform.hasSideEffects addr = false →
        ∃ t, exec (.start v) (storeByte s addr byte) = .next t ∧ memRead t addr = .ok byte ∧
          ∀ x, x ≠ addr → t.mem.read x = s.mem.read x ∧ t.drawn.read x = none

/-- A store is what the next operation reads, also one made while an operation runs: once that operation has ended, in any
order of the later turns in which no store meets the address again and no reset comes, an accepted START finds it with no
draw left over (20_memory.md R62 item 1; log 8 and 23). -/
def Obligations.StoresAreVisibleToTheNextOperation : Prop :=
  ∀ (s u : State) (addr k : Nat) (byte old : Byte) (ts : List Turn) (v : Word),
    s.schedule = .memWrite addr byte :: ts → s.mem.read addr = some old → addr < 2 ^ s.platform.addrW →
      s.platform.hasSideEffects addr = false → (∀ b, .memWrite addr b ∉ ts) → .reset ∉ ts →
        Host.Core.run core (k + 1) s = .next u → u.stage = stageIdle → v.getLsbD 0 = true →
          ∃ t, exec (.start v) u = .next t ∧ t.stage = stageInit ∧ memRead t addr = .ok byte

/-! ### Whole operations

These hold for every order of the turns of sequencer and host (42_host_and_init.md R125). With the schedule used up the
default order applies (log 2); it is one such order. -/

/-- From INIT, in every order of sequencer and host turns and with any legal accesses of the host in between, an operation on
readable input ends with its S(len)-th sequencer step, with DIGEST the closed form of the bytes, the length and the seed,
DONE set and IDLE; before that it is BUSY. S is written out as in 45_finalizer.md R153; the digest is 00_scope.md R11, R12,
the end R151, the orders 42_host_and_init.md R125. -/
def Obligations.OperationsEndWithTheHash : Prop :=
  ∀ (s : State) (m : Nat → Byte), AtInit s → SequencerAndHostOnly s → LegalProgram s →
    InputReads s s.ptr.toNat s.lenL.toNat m →
    let len := s.lenL.toNat
    let tail : Nat → Nat := fun n => if n = 0 then 0 else (n + 7) / 8
    let steps := if len ≤ 32 then 1 + tail len + 1 else 1 + len / 32 + 1 + tail (len % 32) + 1
    ∃ k ≤ s.schedule.length + steps, ∃ t,
      Host.Core.run core k s = .next t ∧ sequencerSteps k s = steps ∧
        t.digest = hash s.platform.rom m s.lenL s.seedL ∧ t.done = true ∧ t.stage = stageIdle ∧
        t.cause = s.cause ∧ t.faultAddr = s.faultAddr ∧
        ∀ j < k, ∃ u, Host.Core.run core j s = .next u ∧ busy u = true

/-- The stages an operation on readable input performs, in every order of sequencer and host turns: INIT, for len > 32
⌊len/32⌋ times BLOCK and FOLD, the tail stages of R145's table, FINAL (43_block_mixer.md R130, R134; 44_tail_absorber.md
R145, R146). -/
def Obligations.OperationsPerformTheirStages : Prop :=
  ∀ (s : State) (m : Nat → Byte) (k : Nat), AtInit s → SequencerAndHostOnly s → LegalProgram s →
    InputReads s s.ptr.toNat s.lenL.toNat m → sequencerSteps k s = operationSteps s.lenL.toNat →
      stageTrace k s = operationStages s.lenL.toNat

/-- The read set, in every order of turns without a reset: a completed operation has read exactly the bytes PTR ..
PTR+LEN−1, each once, ascending from step to step; one that faults has read bytes of that range only, each at most once
and readable but for the faulting one; LEN = 0 reads nothing (20_memory.md R55, R56). It speaks of the operation's own
S(len) sequencer steps, or of all steps where the host has nothing left to start another with. The record itself, one set
for each step, is the model's own (log 11). -/
def Obligations.OperationsReadTheirInputOnce : Prop :=
  ∀ (s t : State) (k : Nat), AtInit s → Inv s → .reset ∉ s.schedule → Host.Core.run core k s = .next t →
    sequencerSteps k s ≤ operationSteps s.lenL.toNat ∨ s.program = [] →
      (t.done = true → ReadsCover t.reads s.ptr.toNat (s.ptr.toNat + s.lenL.toNat)) ∧
        (t.stage = stageFaulted →
          StepsAscend t.reads ∧ ∀ addrs ∈ t.reads, addrs.Nodup ∧
            ∀ x ∈ addrs, s.ptr.toNat ≤ x ∧ x < s.ptr.toNat + s.lenL.toNat ∧
              (x ≠ t.faultAddr.toNat → t.mem.read x ≠ none)) ∧
        (s.lenL.toNat = 0 → t.reads = [])

/-- PTR + N = PTR at START + LEN_L, exactly, from the end of INIT on, through a ReadFault too, in every order of turns
without a reset (10_state.md R26). It speaks of the operation's own S(len) sequencer steps, or of all steps where the host
has nothing left to start another with. -/
def Obligations.OperationsKeepTheInputEnd : Prop :=
  ∀ (s t : State) (k : Nat), AtInit s → Inv s → .reset ∉ s.schedule → Host.Core.run core k s = .next t →
    sequencerSteps k s ≤ operationSteps s.lenL.toNat ∨ s.program = [] →
      t.stage ≠ stageInit → t.cause ≠ FaultCause.rangeFault.code →
        t.ptr.toNat + t.n.toNat = s.ptr.toNat + s.lenL.toNat

/-- On ordinary memory every operation, readable input or not, ends within S(len) sequencer steps, in every order of turns
without a reset and with any legal accesses of the host in between: completed, or stopped by a fault in FAULTED with DONE =
0 (00_scope.md R11, 45_finalizer.md R153, 70_reset_and_hazards.md R188). -/
def Obligations.OperationsEndOrFault : Prop :=
  ∀ s : State, AtInit s → Inv s → .reset ∉ s.schedule → LegalProgram s →
    (∀ addr, s.platform.hasSideEffects addr = false) →
      ∃ k ≤ s.schedule.length + operationSteps s.lenL.toNat, ∃ t,
        Host.Core.run core k s = .next t ∧ sequencerSteps k s ≤ operationSteps s.lenL.toNat ∧
          (∀ j < k, ∃ u, Host.Core.run core j s = .next u ∧ busy u = true) ∧
          ((t.stage = stageIdle ∧ t.done = true) ∨
            (t.stage = stageFaulted ∧ t.done = false ∧ t.digest = s.digest ∧ (t.cause = 1 ∨ t.cause = 2)))

/-- The empty input with seed 0 hashes to 0 for every PRIME, with no memory readable, after INIT and FINAL, in every order of
turns without a reset (45_finalizer.md R152, which marks 'for every PRIME' as its own inference, and R153). -/
def Obligations.EmptyInputWithSeedZeroHashesToZero : Prop :=
  ∀ s : State, AtInit s → .reset ∉ s.schedule → LegalProgram s → s.lenL = 0 → s.seedL = 0 →
    ∃ k ≤ s.schedule.length + 2, ∃ t,
      Host.Core.run core k s = .next t ∧ sequencerSteps k s = 2 ∧ t.digest = 0 ∧ t.done = true

/-- HASH, run with the block from IDLE in any order of sequencer and host turns, returns the hash of the bytes by its last
read (30_encoding.md R79, 00_scope.md R11, 42_host_and_init.md R125). The bound counts the model's default order once the
schedule is used up (log 2). -/
def Obligations.HashLinesReturnTheHash : Prop :=
  ∀ (s : State) (m : Nat → Byte) (data len seed : Word),
    s.stage = stageIdle → SequencerAndHostOnly s → s.program = hashLines s.platform.regBase data len seed →
      (∀ i < len.toNat, s.mem.read (data.toNat + i) = some (m i) ∧
        s.platform.hasSideEffects (data.toNat + i) = false ∧ data.toNat + i < 2 ^ s.platform.addrW) →
        ∃ k ≤ s.schedule.length + 4 + operationSteps len.toNat + 2, ∃ t,
          Host.Core.run core k s = .next t ∧ t.readData = hash s.platform.rom m len seed ∧ t.done = true ∧
            t.program = [] ∧ ∀ j < k, ∃ u, Host.Core.run core j s = .next u ∧ u.program ≠ []
end

