-- ==== Sys2Proof/Laws/Decode.lean ====
section
/-! SUPPORT. The fields of a bus word, and the stage decoder's inverse image. -/

namespace Sys2Proof

/-- The bits of a packed bus word. -/
theorem packBus_getLsbD (key : BitVec 7) (data : Word) (i : Nat) :
    (packBus key data).getLsbD i = if i < 7 then key.getLsbD i else data.getLsbD (i - 7) :=
  BitVec.getLsbD_append

/-- The key of a packed bus word. -/
@[simp] theorem busKey_packBus (key : BitVec 7) (data : Word) : busKey (packBus key data) = key := by
  apply BitVec.eq_of_getLsbD_eq
  intro i hi
  simp [busKey, packBus_getLsbD, hi]

/-- The data of a packed bus word. -/
@[simp] theorem busData_packBus (key : BitVec 7) (data : Word) : busData (packBus key data) = data := by
  apply BitVec.eq_of_getLsbD_eq
  intro i hi
  simp [busData, packBus_getLsbD, hi]

/-- A bus word is its key and its data. -/
theorem packBus_eta (word : BitVec 71) : packBus (busKey word) (busData word) = word := by
  apply BitVec.eq_of_getLsbD_eq
  intro i hi
  rw [packBus_getLsbD]
  split_ifs with h
  · simp [busKey, h]
  · have h1 : 7 + (i - 7) = i := by omega
    have h2 : i - 7 < 64 := by omega
    simp [busData, h1, h2]

/-- Each stage operation comes from exactly the code of R70's table. -/
theorem decodeStage_eq_ok {code : BitVec 4} {i : Instr} (h : decodeStage code = .ok i) :
    encode i = .stage code := by
  obtain ⟨⟨n, hn⟩⟩ := code
  interval_cases n <;> first | (cases h; rfl) | cases h

/-- A code with an operation is not reserved. -/
theorem decodeStage_ok_legal {code : BitVec 4} {i : Instr} (h : decodeStage code = .ok i) :
    stageCodeReserved code = false := by
  obtain ⟨⟨n, hn⟩⟩ := code
  interval_cases n <;> first | rfl | cases h

/-- The codes without an operation are the reserved ones. -/
theorem decodeStage_error {code : BitVec 4} {e : DecodeError} (h : decodeStage code = .error e) :
    stageCodeReserved code = true ∧ e = .reservedStage code := by
  obtain ⟨⟨n, hn⟩⟩ := code
  interval_cases n <;> first | (cases h; exact ⟨rfl, rfl⟩) | cases h

end Sys2Proof
end

