-- ==== Sys2Proof/Laws/Memory.lean ====
section
/-! SUPPORT. Reading after writing, and the canonical form kept by every memory operation. -/

namespace Sys2Proof.Machine

@[simp] theorem Memory.read_nil (addr : Nat) : Memory.read [] addr = none := rfl

theorem Memory.read_cons (cell : Host.Cell) (m : Memory) (addr : Nat) :
    Memory.read (cell :: m) addr = if addr = cell.1 then some cell.2 else Memory.read m addr := rfl

/-- A read after a write at the same address gives the byte written. -/
@[simp] theorem Memory.read_write_same (m : Memory) (addr : Nat) (byte : Byte) :
    (m.write addr byte).read addr = some byte := by
  induction m with
  | nil => simp [Memory.write, Memory.read]
  | cons cell m ih =>
    unfold Memory.write
    split_ifs with h1 h2
    · simp [Memory.read]
    · simp [Memory.read]
    · simp [Memory.read, h2, ih]

/-- A write leaves every other address alone. -/
theorem Memory.read_write_other (m : Memory) {addr x : Nat} (byte : Byte) (h : x ≠ addr) :
    (m.write addr byte).read x = m.read x := by
  induction m with
  | nil => simp [Memory.write, Memory.read, h]
  | cons cell m ih =>
    unfold Memory.write
    split_ifs with h1 h2
    · simp [Memory.read, h]
    · simp only [Memory.read, h, if_false]
      rw [if_neg (by omega)]
    · simp [Memory.read, ih]

/-- The addresses of a write are the old ones and the one written. -/
theorem Memory.mem_write {m : Memory} {addr : Nat} {byte : Byte} {cell : Host.Cell}
    (h : cell ∈ m.write addr byte) : cell = (addr, byte) ∨ cell ∈ m := by
  induction m with
  | nil => simpa [Memory.write] using h
  | cons c m ih =>
    unfold Memory.write at h
    split_ifs at h with h1 h2
    · simpa using h
    · rcases List.mem_cons.mp h with h | h
      · exact .inl h
      · exact .inr (List.mem_cons_of_mem _ h)
    · rcases List.mem_cons.mp h with h | h
      · exact .inr (h ▸ List.mem_cons_self ..)
      · exact (ih h).imp id (List.mem_cons_of_mem _)

/-- A write keeps the canonical form. -/
theorem Memory.write_wf {m : Memory} (addr : Nat) (byte : Byte) (h : Memory.wf m) :
    Memory.wf (m.write addr byte) := by
  induction m with
  | nil => exact List.pairwise_singleton _ _
  | cons c m ih =>
    have hc := List.pairwise_cons.mp h
    unfold Memory.write
    split_ifs with h1 h2
    · refine List.pairwise_cons.mpr ⟨fun x hx => ?_, h⟩
      rcases List.mem_cons.mp hx with rfl | hx
      · exact h1
      · exact h1.trans (hc.1 x hx)
    · exact List.pairwise_cons.mpr ⟨fun x hx => h2 ▸ hc.1 x hx, hc.2⟩
    · refine List.pairwise_cons.mpr ⟨fun x hx => ?_, ih hc.2⟩
      rcases Memory.mem_write hx with rfl | hx
      · simp only; omega
      · exact hc.1 x hx

/-- An address with a byte is listed. -/
theorem Memory.mem_of_read {m : Memory} {addr : Nat} {byte : Byte} (h : m.read addr = some byte) :
    (addr, byte) ∈ m := by
  induction m with
  | nil => simp at h
  | cons c m ih =>
    rw [Memory.read_cons] at h
    split_ifs at h with hx
    · obtain rfl := hx
      cases h
      exact List.mem_cons_self ..
    · exact List.mem_cons_of_mem _ (ih h)

/-- Equal memories are equal data: two canonical lists that read alike are the same list. -/
theorem Memory.ext_of_read {m k : Memory} (hm : Memory.wf m) (hk : Memory.wf k)
    (h : ∀ addr, m.read addr = k.read addr) : m = k := by
  have below : ∀ {l : Memory} {c : Host.Cell}, Memory.wf (c :: l) → ∀ x, x ≤ c.1 → Memory.read l x = none := by
    intro l c hl x hx
    cases hr : Memory.read l x with
    | none => rfl
    | some b => exact absurd ((List.pairwise_cons.mp hl).1 _ (Memory.mem_of_read hr)) (by simp only; omega)
  induction m generalizing k with
  | nil =>
    cases k with
    | nil => rfl
    | cons c k => simpa [Memory.read_cons] using h c.1
  | cons c m ih =>
    cases k with
    | nil => simpa [Memory.read_cons] using h c.1
    | cons e k =>
      have hc := h c.1
      have he := h e.1
      simp only [Memory.read_cons, if_true] at hc he
      have hce : c.1 = e.1 := by
        by_contra hne
        rw [if_neg hne] at hc
        rw [if_neg (fun h => hne h.symm)] at he
        rcases Nat.lt_or_gt_of_ne hne with hlt | hlt
        · rw [below hk c.1 hlt.le] at hc; cases hc
        · rw [below hm e.1 hlt.le] at he; cases he
      rw [if_pos hce] at hc
      have hcell : c = e := Prod.ext hce (Option.some.inj hc)
      subst hcell
      congr 1
      refine ih (List.pairwise_cons.mp hm).2 (List.pairwise_cons.mp hk).2 fun x => ?_
      have hx := h x
      simp only [Memory.read_cons] at hx
      split_ifs at hx with hxc
      · rw [hxc, below hm _ le_rfl, below hk _ le_rfl]
      · exact hx

end Sys2Proof.Machine
end

