-- ==== Sys2Proof/Laws/State.lean ====
section
/-! SUPPORT. What each shared update leaves in each field of State: true by definition, for simp, so that no proof unfolds a record update. -/

namespace Sys2Proof.Machine

/-! ### raiseFault -/

@[simp] theorem raiseFault_a (s : State) (cause : FaultCause) (addr : Nat) :
    (raiseFault s cause addr).a = s.a := rfl
@[simp] theorem raiseFault_b (s : State) (cause : FaultCause) (addr : Nat) :
    (raiseFault s cause addr).b = s.b := rfl
@[simp] theorem raiseFault_c (s : State) (cause : FaultCause) (addr : Nat) :
    (raiseFault s cause addr).c = s.c := rfl
@[simp] theorem raiseFault_d (s : State) (cause : FaultCause) (addr : Nat) :
    (raiseFault s cause addr).d = s.d := rfl
@[simp] theorem raiseFault_ptr (s : State) (cause : FaultCause) (addr : Nat) :
    (raiseFault s cause addr).ptr = s.ptr := rfl
@[simp] theorem raiseFault_n (s : State) (cause : FaultCause) (addr : Nat) :
    (raiseFault s cause addr).n = s.n := rfl
@[simp] theorem raiseFault_lenL (s : State) (cause : FaultCause) (addr : Nat) :
    (raiseFault s cause addr).lenL = s.lenL := rfl
@[simp] theorem raiseFault_seedL (s : State) (cause : FaultCause) (addr : Nat) :
    (raiseFault s cause addr).seedL = s.seedL := rfl
@[simp] theorem raiseFault_stage (s : State) (cause : FaultCause) (addr : Nat) :
    (raiseFault s cause addr).stage = stageFaulted := rfl
@[simp] theorem raiseFault_done (s : State) (cause : FaultCause) (addr : Nat) :
    (raiseFault s cause addr).done = s.done := rfl
@[simp] theorem raiseFault_digest (s : State) (cause : FaultCause) (addr : Nat) :
    (raiseFault s cause addr).digest = s.digest := rfl
@[simp] theorem raiseFault_cause (s : State) (cause : FaultCause) (addr : Nat) :
    (raiseFault s cause addr).cause = cause.code := rfl
@[simp] theorem raiseFault_faultAddr (s : State) (cause : FaultCause) (addr : Nat) :
    (raiseFault s cause addr).faultAddr = BitVec.ofNat 64 addr := rfl
@[simp] theorem raiseFault_dataAddr (s : State) (cause : FaultCause) (addr : Nat) :
    (raiseFault s cause addr).dataAddr = s.dataAddr := rfl
@[simp] theorem raiseFault_len (s : State) (cause : FaultCause) (addr : Nat) :
    (raiseFault s cause addr).len = s.len := rfl
@[simp] theorem raiseFault_seed (s : State) (cause : FaultCause) (addr : Nat) :
    (raiseFault s cause addr).seed = s.seed := rfl
@[simp] theorem raiseFault_platform (s : State) (cause : FaultCause) (addr : Nat) :
    (raiseFault s cause addr).platform = s.platform := rfl
@[simp] theorem raiseFault_mem (s : State) (cause : FaultCause) (addr : Nat) :
    (raiseFault s cause addr).mem = s.mem := rfl
@[simp] theorem raiseFault_drawn (s : State) (cause : FaultCause) (addr : Nat) :
    (raiseFault s cause addr).drawn = s.drawn := rfl
@[simp] theorem raiseFault_draws (s : State) (cause : FaultCause) (addr : Nat) :
    (raiseFault s cause addr).draws = s.draws := rfl
@[simp] theorem raiseFault_reads (s : State) (cause : FaultCause) (addr : Nat) :
    (raiseFault s cause addr).reads = s.reads := rfl
@[simp] theorem raiseFault_readData (s : State) (cause : FaultCause) (addr : Nat) :
    (raiseFault s cause addr).readData = s.readData := rfl
@[simp] theorem raiseFault_program (s : State) (cause : FaultCause) (addr : Nat) :
    (raiseFault s cause addr).program = s.program := rfl
@[simp] theorem raiseFault_schedule (s : State) (cause : FaultCause) (addr : Nat) :
    (raiseFault s cause addr).schedule = s.schedule := rfl

/-! ### recordReads -/

@[simp] theorem recordReads_a (s : State) (addrs : List Nat) :
    (recordReads s addrs).a = s.a := rfl
@[simp] theorem recordReads_b (s : State) (addrs : List Nat) :
    (recordReads s addrs).b = s.b := rfl
@[simp] theorem recordReads_c (s : State) (addrs : List Nat) :
    (recordReads s addrs).c = s.c := rfl
@[simp] theorem recordReads_d (s : State) (addrs : List Nat) :
    (recordReads s addrs).d = s.d := rfl
@[simp] theorem recordReads_ptr (s : State) (addrs : List Nat) :
    (recordReads s addrs).ptr = s.ptr := rfl
@[simp] theorem recordReads_n (s : State) (addrs : List Nat) :
    (recordReads s addrs).n = s.n := rfl
@[simp] theorem recordReads_lenL (s : State) (addrs : List Nat) :
    (recordReads s addrs).lenL = s.lenL := rfl
@[simp] theorem recordReads_seedL (s : State) (addrs : List Nat) :
    (recordReads s addrs).seedL = s.seedL := rfl
@[simp] theorem recordReads_stage (s : State) (addrs : List Nat) :
    (recordReads s addrs).stage = s.stage := rfl
@[simp] theorem recordReads_done (s : State) (addrs : List Nat) :
    (recordReads s addrs).done = s.done := rfl
@[simp] theorem recordReads_digest (s : State) (addrs : List Nat) :
    (recordReads s addrs).digest = s.digest := rfl
@[simp] theorem recordReads_cause (s : State) (addrs : List Nat) :
    (recordReads s addrs).cause = s.cause := rfl
@[simp] theorem recordReads_faultAddr (s : State) (addrs : List Nat) :
    (recordReads s addrs).faultAddr = s.faultAddr := rfl
@[simp] theorem recordReads_dataAddr (s : State) (addrs : List Nat) :
    (recordReads s addrs).dataAddr = s.dataAddr := rfl
@[simp] theorem recordReads_len (s : State) (addrs : List Nat) :
    (recordReads s addrs).len = s.len := rfl
@[simp] theorem recordReads_seed (s : State) (addrs : List Nat) :
    (recordReads s addrs).seed = s.seed := rfl
@[simp] theorem recordReads_platform (s : State) (addrs : List Nat) :
    (recordReads s addrs).platform = s.platform := rfl
@[simp] theorem recordReads_mem (s : State) (addrs : List Nat) :
    (recordReads s addrs).mem = s.mem := rfl
@[simp] theorem recordReads_drawn (s : State) (addrs : List Nat) :
    (recordReads s addrs).drawn = s.drawn := rfl
@[simp] theorem recordReads_draws (s : State) (addrs : List Nat) :
    (recordReads s addrs).draws = s.draws := rfl
@[simp] theorem recordReads_reads (s : State) (addrs : List Nat) :
    (recordReads s addrs).reads = s.reads ++ [addrs] := rfl
@[simp] theorem recordReads_readData (s : State) (addrs : List Nat) :
    (recordReads s addrs).readData = s.readData := rfl
@[simp] theorem recordReads_program (s : State) (addrs : List Nat) :
    (recordReads s addrs).program = s.program := rfl
@[simp] theorem recordReads_schedule (s : State) (addrs : List Nat) :
    (recordReads s addrs).schedule = s.schedule := rfl

/-! ### raiseReadFault -/

@[simp] theorem raiseReadFault_a (s : State) (p k addr : Nat) :
    (raiseReadFault s p k addr).a = s.a := rfl
@[simp] theorem raiseReadFault_b (s : State) (p k addr : Nat) :
    (raiseReadFault s p k addr).b = s.b := rfl
@[simp] theorem raiseReadFault_c (s : State) (p k addr : Nat) :
    (raiseReadFault s p k addr).c = s.c := rfl
@[simp] theorem raiseReadFault_d (s : State) (p k addr : Nat) :
    (raiseReadFault s p k addr).d = s.d := rfl
@[simp] theorem raiseReadFault_ptr (s : State) (p k addr : Nat) :
    (raiseReadFault s p k addr).ptr = s.ptr := rfl
@[simp] theorem raiseReadFault_n (s : State) (p k addr : Nat) :
    (raiseReadFault s p k addr).n = s.n := rfl
@[simp] theorem raiseReadFault_lenL (s : State) (p k addr : Nat) :
    (raiseReadFault s p k addr).lenL = s.lenL := rfl
@[simp] theorem raiseReadFault_seedL (s : State) (p k addr : Nat) :
    (raiseReadFault s p k addr).seedL = s.seedL := rfl
@[simp] theorem raiseReadFault_stage (s : State) (p k addr : Nat) :
    (raiseReadFault s p k addr).stage = stageFaulted := rfl
@[simp] theorem raiseReadFault_done (s : State) (p k addr : Nat) :
    (raiseReadFault s p k addr).done = s.done := rfl
@[simp] theorem raiseReadFault_digest (s : State) (p k addr : Nat) :
    (raiseReadFault s p k addr).digest = s.digest := rfl
@[simp] theorem raiseReadFault_cause (s : State) (p k addr : Nat) :
    (raiseReadFault s p k addr).cause = FaultCause.readFault.code := rfl
@[simp] theorem raiseReadFault_faultAddr (s : State) (p k addr : Nat) :
    (raiseReadFault s p k addr).faultAddr = BitVec.ofNat 64 addr := rfl
@[simp] theorem raiseReadFault_dataAddr (s : State) (p k addr : Nat) :
    (raiseReadFault s p k addr).dataAddr = s.dataAddr := rfl
@[simp] theorem raiseReadFault_len (s : State) (p k addr : Nat) :
    (raiseReadFault s p k addr).len = s.len := rfl
@[simp] theorem raiseReadFault_seed (s : State) (p k addr : Nat) :
    (raiseReadFault s p k addr).seed = s.seed := rfl
@[simp] theorem raiseReadFault_platform (s : State) (p k addr : Nat) :
    (raiseReadFault s p k addr).platform = s.platform := rfl
@[simp] theorem raiseReadFault_mem (s : State) (p k addr : Nat) :
    (raiseReadFault s p k addr).mem = s.mem := rfl
@[simp] theorem raiseReadFault_drawn (s : State) (p k addr : Nat) :
    (raiseReadFault s p k addr).drawn = s.drawn := rfl
@[simp] theorem raiseReadFault_draws (s : State) (p k addr : Nat) :
    (raiseReadFault s p k addr).draws = s.draws + 1 := rfl
@[simp] theorem raiseReadFault_reads (s : State) (p k addr : Nat) :
    (raiseReadFault s p k addr).reads = s.reads ++ [faultedReads s p k addr] := rfl
@[simp] theorem raiseReadFault_readData (s : State) (p k addr : Nat) :
    (raiseReadFault s p k addr).readData = s.readData := rfl
@[simp] theorem raiseReadFault_program (s : State) (p k addr : Nat) :
    (raiseReadFault s p k addr).program = s.program := rfl
@[simp] theorem raiseReadFault_schedule (s : State) (p k addr : Nat) :
    (raiseReadFault s p k addr).schedule = s.schedule := rfl

/-! ### returnValue -/

@[simp] theorem returnValue_a (s : State) (v : Word) :
    (returnValue s v).a = s.a := rfl
@[simp] theorem returnValue_b (s : State) (v : Word) :
    (returnValue s v).b = s.b := rfl
@[simp] theorem returnValue_c (s : State) (v : Word) :
    (returnValue s v).c = s.c := rfl
@[simp] theorem returnValue_d (s : State) (v : Word) :
    (returnValue s v).d = s.d := rfl
@[simp] theorem returnValue_ptr (s : State) (v : Word) :
    (returnValue s v).ptr = s.ptr := rfl
@[simp] theorem returnValue_n (s : State) (v : Word) :
    (returnValue s v).n = s.n := rfl
@[simp] theorem returnValue_lenL (s : State) (v : Word) :
    (returnValue s v).lenL = s.lenL := rfl
@[simp] theorem returnValue_seedL (s : State) (v : Word) :
    (returnValue s v).seedL = s.seedL := rfl
@[simp] theorem returnValue_stage (s : State) (v : Word) :
    (returnValue s v).stage = s.stage := rfl
@[simp] theorem returnValue_done (s : State) (v : Word) :
    (returnValue s v).done = s.done := rfl
@[simp] theorem returnValue_digest (s : State) (v : Word) :
    (returnValue s v).digest = s.digest := rfl
@[simp] theorem returnValue_cause (s : State) (v : Word) :
    (returnValue s v).cause = s.cause := rfl
@[simp] theorem returnValue_faultAddr (s : State) (v : Word) :
    (returnValue s v).faultAddr = s.faultAddr := rfl
@[simp] theorem returnValue_dataAddr (s : State) (v : Word) :
    (returnValue s v).dataAddr = s.dataAddr := rfl
@[simp] theorem returnValue_len (s : State) (v : Word) :
    (returnValue s v).len = s.len := rfl
@[simp] theorem returnValue_seed (s : State) (v : Word) :
    (returnValue s v).seed = s.seed := rfl
@[simp] theorem returnValue_platform (s : State) (v : Word) :
    (returnValue s v).platform = s.platform := rfl
@[simp] theorem returnValue_mem (s : State) (v : Word) :
    (returnValue s v).mem = s.mem := rfl
@[simp] theorem returnValue_drawn (s : State) (v : Word) :
    (returnValue s v).drawn = s.drawn := rfl
@[simp] theorem returnValue_draws (s : State) (v : Word) :
    (returnValue s v).draws = s.draws := rfl
@[simp] theorem returnValue_reads (s : State) (v : Word) :
    (returnValue s v).reads = s.reads := rfl
@[simp] theorem returnValue_readData (s : State) (v : Word) :
    (returnValue s v).readData = v := rfl
@[simp] theorem returnValue_program (s : State) (v : Word) :
    (returnValue s v).program = s.program := rfl
@[simp] theorem returnValue_schedule (s : State) (v : Word) :
    (returnValue s v).schedule = s.schedule := rfl

/-! ### acceptStart -/

@[simp] theorem acceptStart_a (s : State) :
    (acceptStart s).a = s.a := rfl
@[simp] theorem acceptStart_b (s : State) :
    (acceptStart s).b = s.b := rfl
@[simp] theorem acceptStart_c (s : State) :
    (acceptStart s).c = s.c := rfl
@[simp] theorem acceptStart_d (s : State) :
    (acceptStart s).d = s.d := rfl
@[simp] theorem acceptStart_ptr (s : State) :
    (acceptStart s).ptr = s.dataAddr.setWidth 65 := rfl
@[simp] theorem acceptStart_n (s : State) :
    (acceptStart s).n = s.n := rfl
@[simp] theorem acceptStart_lenL (s : State) :
    (acceptStart s).lenL = s.len := rfl
@[simp] theorem acceptStart_seedL (s : State) :
    (acceptStart s).seedL = s.seed := rfl
@[simp] theorem acceptStart_stage (s : State) :
    (acceptStart s).stage = stageInit := rfl
@[simp] theorem acceptStart_done (s : State) :
    (acceptStart s).done = false := rfl
@[simp] theorem acceptStart_digest (s : State) :
    (acceptStart s).digest = s.digest := rfl
@[simp] theorem acceptStart_cause (s : State) :
    (acceptStart s).cause = s.cause := rfl
@[simp] theorem acceptStart_faultAddr (s : State) :
    (acceptStart s).faultAddr = s.faultAddr := rfl
@[simp] theorem acceptStart_dataAddr (s : State) :
    (acceptStart s).dataAddr = s.dataAddr := rfl
@[simp] theorem acceptStart_len (s : State) :
    (acceptStart s).len = s.len := rfl
@[simp] theorem acceptStart_seed (s : State) :
    (acceptStart s).seed = s.seed := rfl
@[simp] theorem acceptStart_platform (s : State) :
    (acceptStart s).platform = s.platform := rfl
@[simp] theorem acceptStart_mem (s : State) :
    (acceptStart s).mem = s.mem := rfl
@[simp] theorem acceptStart_drawn (s : State) :
    (acceptStart s).drawn = [] := rfl
@[simp] theorem acceptStart_draws (s : State) :
    (acceptStart s).draws = s.draws := rfl
@[simp] theorem acceptStart_reads (s : State) :
    (acceptStart s).reads = [] := rfl
@[simp] theorem acceptStart_readData (s : State) :
    (acceptStart s).readData = s.readData := rfl
@[simp] theorem acceptStart_program (s : State) :
    (acceptStart s).program = s.program := rfl
@[simp] theorem acceptStart_schedule (s : State) :
    (acceptStart s).schedule = s.schedule := rfl

/-! ### initLanes -/

@[simp] theorem initLanes_a (s : State) :
    (initLanes s).a = s.seedL := rfl
@[simp] theorem initLanes_b (s : State) :
    (initLanes s).b = s.lenL := rfl
@[simp] theorem initLanes_c (s : State) :
    (initLanes s).c = rotr s.lenL s1 + s.seedL := rfl
@[simp] theorem initLanes_d (s : State) :
    (initLanes s).d = s.lenL ^^^ rotr s.seedL s1 := rfl
@[simp] theorem initLanes_ptr (s : State) :
    (initLanes s).ptr = s.ptr := rfl
@[simp] theorem initLanes_n (s : State) :
    (initLanes s).n = s.lenL := rfl
@[simp] theorem initLanes_lenL (s : State) :
    (initLanes s).lenL = s.lenL := rfl
@[simp] theorem initLanes_seedL (s : State) :
    (initLanes s).seedL = s.seedL := rfl
@[simp] theorem initLanes_stage (s : State) :
    (initLanes s).stage = if 32 < s.lenL.toNat then stageBlock else dispatch s.lenL := rfl
@[simp] theorem initLanes_done (s : State) :
    (initLanes s).done = s.done := rfl
@[simp] theorem initLanes_digest (s : State) :
    (initLanes s).digest = s.digest := rfl
@[simp] theorem initLanes_cause (s : State) :
    (initLanes s).cause = s.cause := rfl
@[simp] theorem initLanes_faultAddr (s : State) :
    (initLanes s).faultAddr = s.faultAddr := rfl
@[simp] theorem initLanes_dataAddr (s : State) :
    (initLanes s).dataAddr = s.dataAddr := rfl
@[simp] theorem initLanes_len (s : State) :
    (initLanes s).len = s.len := rfl
@[simp] theorem initLanes_seed (s : State) :
    (initLanes s).seed = s.seed := rfl
@[simp] theorem initLanes_platform (s : State) :
    (initLanes s).platform = s.platform := rfl
@[simp] theorem initLanes_mem (s : State) :
    (initLanes s).mem = s.mem := rfl
@[simp] theorem initLanes_drawn (s : State) :
    (initLanes s).drawn = s.drawn := rfl
@[simp] theorem initLanes_draws (s : State) :
    (initLanes s).draws = s.draws := rfl
@[simp] theorem initLanes_reads (s : State) :
    (initLanes s).reads = s.reads := rfl
@[simp] theorem initLanes_readData (s : State) :
    (initLanes s).readData = s.readData := rfl
@[simp] theorem initLanes_program (s : State) :
    (initLanes s).program = s.program := rfl
@[simp] theorem initLanes_schedule (s : State) :
    (initLanes s).schedule = s.schedule := rfl

/-! ### mixBlock -/

@[simp] theorem mixBlock_a (s : State) (w : BlockWords) :
    (mixBlock s w).a = s.a ^^^ (s.platform.rom.p1 * ((w.w0 ^^^ rotr (w.w2 + s.d) s1) + w.w3)) := rfl
@[simp] theorem mixBlock_b (s : State) (w : BlockWords) :
    (mixBlock s w).b = s.b ^^^ (s.platform.rom.p0 * ((w.w1 ^^^ rotr (w.w3 + s.c) s1) + w.w2)) := rfl
@[simp] theorem mixBlock_c (s : State) (w : BlockWords) :
    (mixBlock s w).c = s.c + (s.a ^^^ rotr w.w0 s0) := rfl
@[simp] theorem mixBlock_d (s : State) (w : BlockWords) :
    (mixBlock s w).d = s.d - (s.b ^^^ rotr w.w1 s2) := rfl
@[simp] theorem mixBlock_ptr (s : State) (w : BlockWords) :
    (mixBlock s w).ptr = s.ptr + 32 := rfl
@[simp] theorem mixBlock_n (s : State) (w : BlockWords) :
    (mixBlock s w).n = s.n - 32 := rfl
@[simp] theorem mixBlock_lenL (s : State) (w : BlockWords) :
    (mixBlock s w).lenL = s.lenL := rfl
@[simp] theorem mixBlock_seedL (s : State) (w : BlockWords) :
    (mixBlock s w).seedL = s.seedL := rfl
@[simp] theorem mixBlock_stage (s : State) (w : BlockWords) :
    (mixBlock s w).stage = if 32 ≤ (s.n - 32).toNat then stageBlock else stageFold := rfl
@[simp] theorem mixBlock_done (s : State) (w : BlockWords) :
    (mixBlock s w).done = s.done := rfl
@[simp] theorem mixBlock_digest (s : State) (w : BlockWords) :
    (mixBlock s w).digest = s.digest := rfl
@[simp] theorem mixBlock_cause (s : State) (w : BlockWords) :
    (mixBlock s w).cause = s.cause := rfl
@[simp] theorem mixBlock_faultAddr (s : State) (w : BlockWords) :
    (mixBlock s w).faultAddr = s.faultAddr := rfl
@[simp] theorem mixBlock_dataAddr (s : State) (w : BlockWords) :
    (mixBlock s w).dataAddr = s.dataAddr := rfl
@[simp] theorem mixBlock_len (s : State) (w : BlockWords) :
    (mixBlock s w).len = s.len := rfl
@[simp] theorem mixBlock_seed (s : State) (w : BlockWords) :
    (mixBlock s w).seed = s.seed := rfl
@[simp] theorem mixBlock_platform (s : State) (w : BlockWords) :
    (mixBlock s w).platform = s.platform := rfl
@[simp] theorem mixBlock_mem (s : State) (w : BlockWords) :
    (mixBlock s w).mem = s.mem := rfl
@[simp] theorem mixBlock_drawn (s : State) (w : BlockWords) :
    (mixBlock s w).drawn = s.drawn := rfl
@[simp] theorem mixBlock_draws (s : State) (w : BlockWords) :
    (mixBlock s w).draws = s.draws := rfl
@[simp] theorem mixBlock_reads (s : State) (w : BlockWords) :
    (mixBlock s w).reads = s.reads := rfl
@[simp] theorem mixBlock_readData (s : State) (w : BlockWords) :
    (mixBlock s w).readData = s.readData := rfl
@[simp] theorem mixBlock_program (s : State) (w : BlockWords) :
    (mixBlock s w).program = s.program := rfl
@[simp] theorem mixBlock_schedule (s : State) (w : BlockWords) :
    (mixBlock s w).schedule = s.schedule := rfl

/-! ### advance8 -/

@[simp] theorem advance8_a (s : State) :
    (advance8 s).a = s.a := rfl
@[simp] theorem advance8_b (s : State) :
    (advance8 s).b = s.b := rfl
@[simp] theorem advance8_c (s : State) :
    (advance8 s).c = s.c := rfl
@[simp] theorem advance8_d (s : State) :
    (advance8 s).d = s.d := rfl
@[simp] theorem advance8_ptr (s : State) :
    (advance8 s).ptr = s.ptr + 8 := rfl
@[simp] theorem advance8_n (s : State) :
    (advance8 s).n = s.n - 8 := rfl
@[simp] theorem advance8_lenL (s : State) :
    (advance8 s).lenL = s.lenL := rfl
@[simp] theorem advance8_seedL (s : State) :
    (advance8 s).seedL = s.seedL := rfl
@[simp] theorem advance8_stage (s : State) :
    (advance8 s).stage = dispatch (s.n - 8) := rfl
@[simp] theorem advance8_done (s : State) :
    (advance8 s).done = s.done := rfl
@[simp] theorem advance8_digest (s : State) :
    (advance8 s).digest = s.digest := rfl
@[simp] theorem advance8_cause (s : State) :
    (advance8 s).cause = s.cause := rfl
@[simp] theorem advance8_faultAddr (s : State) :
    (advance8 s).faultAddr = s.faultAddr := rfl
@[simp] theorem advance8_dataAddr (s : State) :
    (advance8 s).dataAddr = s.dataAddr := rfl
@[simp] theorem advance8_len (s : State) :
    (advance8 s).len = s.len := rfl
@[simp] theorem advance8_seed (s : State) :
    (advance8 s).seed = s.seed := rfl
@[simp] theorem advance8_platform (s : State) :
    (advance8 s).platform = s.platform := rfl
@[simp] theorem advance8_mem (s : State) :
    (advance8 s).mem = s.mem := rfl
@[simp] theorem advance8_drawn (s : State) :
    (advance8 s).drawn = s.drawn := rfl
@[simp] theorem advance8_draws (s : State) :
    (advance8 s).draws = s.draws := rfl
@[simp] theorem advance8_reads (s : State) :
    (advance8 s).reads = s.reads := rfl
@[simp] theorem advance8_readData (s : State) :
    (advance8 s).readData = s.readData := rfl
@[simp] theorem advance8_program (s : State) :
    (advance8 s).program = s.program := rfl
@[simp] theorem advance8_schedule (s : State) :
    (advance8 s).schedule = s.schedule := rfl

/-! ### resetBlock -/

@[simp] theorem resetBlock_a (s : State) : (resetBlock s).a = 0 := rfl
@[simp] theorem resetBlock_b (s : State) : (resetBlock s).b = 0 := rfl
@[simp] theorem resetBlock_c (s : State) : (resetBlock s).c = 0 := rfl
@[simp] theorem resetBlock_d (s : State) : (resetBlock s).d = 0 := rfl
@[simp] theorem resetBlock_ptr (s : State) : (resetBlock s).ptr = 0 := rfl
@[simp] theorem resetBlock_n (s : State) : (resetBlock s).n = 0 := rfl
@[simp] theorem resetBlock_lenL (s : State) : (resetBlock s).lenL = 0 := rfl
@[simp] theorem resetBlock_seedL (s : State) : (resetBlock s).seedL = 0 := rfl
@[simp] theorem resetBlock_stage (s : State) : (resetBlock s).stage = stageIdle := rfl
@[simp] theorem resetBlock_done (s : State) : (resetBlock s).done = false := rfl
@[simp] theorem resetBlock_digest (s : State) : (resetBlock s).digest = 0 := rfl
@[simp] theorem resetBlock_cause (s : State) : (resetBlock s).cause = 0 := rfl
@[simp] theorem resetBlock_faultAddr (s : State) : (resetBlock s).faultAddr = 0 := rfl
@[simp] theorem resetBlock_dataAddr (s : State) : (resetBlock s).dataAddr = 0 := rfl
@[simp] theorem resetBlock_len (s : State) : (resetBlock s).len = 0 := rfl
@[simp] theorem resetBlock_seed (s : State) : (resetBlock s).seed = 0 := rfl
@[simp] theorem resetBlock_platform (s : State) : (resetBlock s).platform = s.platform := rfl
@[simp] theorem resetBlock_mem (s : State) : (resetBlock s).mem = s.mem := rfl
@[simp] theorem resetBlock_drawn (s : State) : (resetBlock s).drawn = [] := rfl
@[simp] theorem resetBlock_draws (s : State) : (resetBlock s).draws = s.draws := rfl
@[simp] theorem resetBlock_reads (s : State) : (resetBlock s).reads = [] := rfl
@[simp] theorem resetBlock_readData (s : State) : (resetBlock s).readData = s.readData := rfl
@[simp] theorem resetBlock_program (s : State) : (resetBlock s).program = s.program := rfl
@[simp] theorem resetBlock_schedule (s : State) : (resetBlock s).schedule = s.schedule := rfl

/-! ### storeByte -/

@[simp] theorem storeByte_a (s : State) (addr : Nat) (byte : Byte) :
    (storeByte s addr byte).a = s.a := by
  unfold storeByte; split_ifs <;> rfl
@[simp] theorem storeByte_b (s : State) (addr : Nat) (byte : Byte) :
    (storeByte s addr byte).b = s.b := by
  unfold storeByte; split_ifs <;> rfl
@[simp] theorem storeByte_c (s : State) (addr : Nat) (byte : Byte) :
    (storeByte s addr byte).c = s.c := by
  unfold storeByte; split_ifs <;> rfl
@[simp] theorem storeByte_d (s : State) (addr : Nat) (byte : Byte) :
    (storeByte s addr byte).d = s.d := by
  unfold storeByte; split_ifs <;> rfl
@[simp] theorem storeByte_ptr (s : State) (addr : Nat) (byte : Byte) :
    (storeByte s addr byte).ptr = s.ptr := by
  unfold storeByte; split_ifs <;> rfl
@[simp] theorem storeByte_n (s : State) (addr : Nat) (byte : Byte) :
    (storeByte s addr byte).n = s.n := by
  unfold storeByte; split_ifs <;> rfl
@[simp] theorem storeByte_lenL (s : State) (addr : Nat) (byte : Byte) :
    (storeByte s addr byte).lenL = s.lenL := by
  unfold storeByte; split_ifs <;> rfl
@[simp] theorem storeByte_seedL (s : State) (addr : Nat) (byte : Byte) :
    (storeByte s addr byte).seedL = s.seedL := by
  unfold storeByte; split_ifs <;> rfl
@[simp] theorem storeByte_stage (s : State) (addr : Nat) (byte : Byte) :
    (storeByte s addr byte).stage = s.stage := by
  unfold storeByte; split_ifs <;> rfl
@[simp] theorem storeByte_done (s : State) (addr : Nat) (byte : Byte) :
    (storeByte s addr byte).done = s.done := by
  unfold storeByte; split_ifs <;> rfl
@[simp] theorem storeByte_digest (s : State) (addr : Nat) (byte : Byte) :
    (storeByte s addr byte).digest = s.digest := by
  unfold storeByte; split_ifs <;> rfl
@[simp] theorem storeByte_cause (s : State) (addr : Nat) (byte : Byte) :
    (storeByte s addr byte).cause = s.cause := by
  unfold storeByte; split_ifs <;> rfl
@[simp] theorem storeByte_faultAddr (s : State) (addr : Nat) (byte : Byte) :
    (storeByte s addr byte).faultAddr = s.faultAddr := by
  unfold storeByte; split_ifs <;> rfl
@[simp] theorem storeByte_dataAddr (s : State) (addr : Nat) (byte : Byte) :
    (storeByte s addr byte).dataAddr = s.dataAddr := by
  unfold storeByte; split_ifs <;> rfl
@[simp] theorem storeByte_len (s : State) (addr : Nat) (byte : Byte) :
    (storeByte s addr byte).len = s.len := by
  unfold storeByte; split_ifs <;> rfl
@[simp] theorem storeByte_seed (s : State) (addr : Nat) (byte : Byte) :
    (storeByte s addr byte).seed = s.seed := by
  unfold storeByte; split_ifs <;> rfl
@[simp] theorem storeByte_platform (s : State) (addr : Nat) (byte : Byte) :
    (storeByte s addr byte).platform = s.platform := by
  unfold storeByte; split_ifs <;> rfl
@[simp] theorem storeByte_reads (s : State) (addr : Nat) (byte : Byte) :
    (storeByte s addr byte).reads = s.reads := by
  unfold storeByte; split_ifs <;> rfl
@[simp] theorem storeByte_readData (s : State) (addr : Nat) (byte : Byte) :
    (storeByte s addr byte).readData = s.readData := by
  unfold storeByte; split_ifs <;> rfl
@[simp] theorem storeByte_program (s : State) (addr : Nat) (byte : Byte) :
    (storeByte s addr byte).program = s.program := by
  unfold storeByte; split_ifs <;> rfl
@[simp] theorem storeByte_schedule (s : State) (addr : Nat) (byte : Byte) :
    (storeByte s addr byte).schedule = s.schedule := by
  unfold storeByte; split_ifs <;> rfl

end Sys2Proof.Machine
end

