-- ==== Sys2Proof/Laws/Ops.lean ====
section
/-! SUPPORT. For each shared operation, one lemma that says everything it can do. -/

namespace Sys2Proof.Machine

/-! ### Reads of one step taken together -/

section Both
variable {α β γ : Type} {f : α → β → γ} {x : ReadResult α} {y : ReadResult β}

/-- The reads together give a value exactly when both halves do. -/
theorem ReadResult.both_eq_ok {u : γ} :
    ReadResult.both f x y = .ok u ↔ ∃ v w, x = .ok v ∧ y = .ok w ∧ f v w = u := by
  cases x <;> cases y <;> simp [ReadResult.both]

/-- A refused address comes from the lower half, or from the upper one where the lower is all read. -/
theorem ReadResult.both_eq_refused {addr : Nat} :
    ReadResult.both f x y = .refused addr ↔
      (x = .refused addr ∧ ∀ z, y ≠ .unsaid z) ∨ ((∃ v, x = .ok v) ∧ y = .refused addr) := by
  cases x <;> cases y <;> simp [ReadResult.both]

/-- A side-effecting address in either half makes the whole unsaid. -/
theorem ReadResult.both_eq_unsaid {addr : Nat} :
    ReadResult.both f x y = .unsaid addr ↔
      x = .unsaid addr ∨ ((∀ z, x ≠ .unsaid z) ∧ y = .unsaid addr) := by
  cases x <;> cases y <;> simp [ReadResult.both]

end Both

/-! ### The memory port -/

/-- MemRead answers a byte exactly at an ordinary readable address below 2^ADDR_W: the draw where the host changed it,
else M's byte. -/
theorem memRead_eq_ok {s : State} {addr : Nat} {v : Byte} :
    memRead s addr = .ok v ↔
      addr < 2 ^ s.platform.addrW ∧ s.platform.hasSideEffects addr = false ∧
        ∃ byte, s.mem.read addr = some byte ∧ v = (s.drawn.read addr).getD byte := by
  unfold memRead
  by_cases hb : 2 ^ s.platform.addrW ≤ addr
  · simp [hb, Nat.not_lt.mpr hb]
  · cases hm : s.mem.read addr with
    | none => simp [hb]
    | some byte => by_cases hs : s.platform.hasSideEffects addr <;> simp [hb, hs, Nat.not_le.mp hb, eq_comm]

/-- MemRead refuses no address but the one asked, and exactly outside the space or MEM_READABLE. -/
theorem memRead_eq_refused {s : State} {addr x : Nat} :
    memRead s addr = .refused x ↔
      x = addr ∧ (2 ^ s.platform.addrW ≤ addr ∨ s.mem.read addr = none) := by
  unfold memRead
  by_cases hb : 2 ^ s.platform.addrW ≤ addr
  · simp [hb, eq_comm]
  · cases hm : s.mem.read addr with
    | none => simp [hb, eq_comm]
    | some byte => by_cases hs : s.platform.hasSideEffects addr <;> simp [hb, hs, eq_comm]

/-- The unsaid address is the one asked. -/
theorem memRead_eq_unsaid {s : State} {addr x : Nat} :
    memRead s addr = .unsaid x ↔
      x = addr ∧ addr < 2 ^ s.platform.addrW ∧ s.mem.read addr ≠ none ∧
        s.platform.hasSideEffects addr = true := by
  unfold memRead
  by_cases hb : 2 ^ s.platform.addrW ≤ addr
  · simp [hb, Nat.not_lt.mpr hb]
  · cases hm : s.mem.read addr with
    | none => simp [hb]
    | some byte => by_cases hs : s.platform.hasSideEffects addr <;> simp [hb, hs, Nat.not_le.mp hb, eq_comm]

/-- MemRead depends on the platform, the data space and the draws only. -/
theorem memRead_congr {s t : State} (hp : t.platform = s.platform) (hm : t.mem = s.mem) (hd : t.drawn = s.drawn) :
    memRead t = memRead s := by
  funext addr
  simp only [memRead, hp, hm, hd]

/-! ### Reading stages -/

/-- A reading stage that answers a next state has read its bytes and written its results, or has taken a ReadFault. -/
theorem readingStage_next {α : Type} {s t : State} {p k : Nat} {r : ReadResult α} {writes : α → State}
    (h : readingStage s p k r writes = .next t) :
    (∃ v, r = .ok v ∧ t = recordReads (writes v) (List.range' p k)) ∨
      (∃ addr, r = .refused addr ∧ t = raiseReadFault s p k addr) := by
  cases r with
  | ok v => exact .inl ⟨v, rfl, (Host.Outcome.next.inj h).symm⟩
  | refused addr => exact .inr ⟨addr, rfl, (Host.Outcome.next.inj h).symm⟩
  | unsaid addr => cases h

/-! ### Data-space stores from outside -/

/-- A store changes nothing of M, or one readable byte; in the second case a running operation gets one draw. -/
theorem storeByte_cases (s : State) (addr : Nat) (byte : Byte) :
    (storeByte s addr byte = s ∧ (s.mem.read addr = none ∨ s.mem.read addr = some byte)) ∨
      (s.mem.read addr ≠ none ∧ s.mem.read addr ≠ some byte ∧
        ((busy s = true ∧ storeByte s addr byte =
            { s with
              mem := s.mem.write addr byte
              drawn := s.drawn.write addr (Config.drawByte s.draws)
              draws := s.draws + 1 }) ∨
          (busy s = false ∧ storeByte s addr byte = { s with mem := s.mem.write addr byte }))) := by
  unfold storeByte
  split_ifs with h1 h2
  · exact .inl ⟨rfl, h1⟩
  · exact .inr ⟨fun h => h1 (.inl h), fun h => h1 (.inr h), .inl ⟨h2, rfl⟩⟩
  · exact .inr ⟨fun h => h1 (.inl h), fun h => h1 (.inr h), .inr ⟨by simpa using h2, rfl⟩⟩

/-- A store from outside keeps the canonical form of the data space and of the draws. -/
theorem storeByte_wf {s : State} (addr : Nat) (byte : Byte) (hm : Memory.wf s.mem) (hd : Memory.wf s.drawn) :
    Memory.wf (storeByte s addr byte).mem ∧ Memory.wf (storeByte s addr byte).drawn := by
  rcases storeByte_cases s addr byte with ⟨h, -⟩ | ⟨-, -, ⟨-, h⟩ | ⟨-, h⟩⟩ <;> rw [h]
  · exact ⟨hm, hd⟩
  · exact ⟨Memory.write_wf _ _ hm, Memory.write_wf _ _ hd⟩
  · exact ⟨Memory.write_wf _ _ hm, hd⟩

/-- After reset the data space is in canonical form. -/
theorem reset_memory_wf : Memory.wf State.reset.mem := List.Pairwise.nil

/-! ### Turns -/

/-- A turn that answers a next state is a reset, or finds a legal stage code and is the sequencer's, the host's or a store. -/
theorem takeTurn_next {turn : Turn} {s t : State} (h : takeTurn turn s = .next t) :
    (turn = .reset ∧ t = resetBlock s) ∨
      (stageCodeReserved s.stage = false ∧
        ((turn = .sequencer ∧ sequencerTurn s = .next t) ∨ (turn = .host ∧ hostTurn s = .next t) ∨
          ∃ addr byte, turn = .memWrite addr byte ∧ t = storeByte s addr byte)) := by
  cases turn with
  | reset => exact .inl ⟨rfl, (Host.Outcome.next.inj h).symm⟩
  | sequencer =>
    simp only [takeTurn, unlessReserved] at h
    split_ifs at h with hr
    exact .inr ⟨by simpa using hr, .inl ⟨rfl, h⟩⟩
  | host =>
    simp only [takeTurn, unlessReserved] at h
    split_ifs at h with hr
    exact .inr ⟨by simpa using hr, .inr (.inl ⟨rfl, h⟩)⟩
  | memWrite addr byte =>
    simp only [takeTurn, unlessReserved] at h
    split_ifs at h with hr
    exact .inr ⟨by simpa using hr, .inr (.inr ⟨addr, byte, rfl, (Host.Outcome.next.inj h).symm⟩)⟩

/-- The sequencer's turn performs the operation STAGE names. -/
theorem sequencerTurn_next {s t : State} (h : sequencerTurn s = .next t) :
    ∃ i, decodeStage s.stage = .ok i ∧ exec i s = .next t := by
  unfold sequencerTurn at h
  split at h
  · exact ⟨_, ‹_›, h⟩
  · cases h

/-- The host's turn makes no access, polls STATUS, or performs one legal access and goes on to the next line. -/
theorem hostTurn_next {s t : State} (h : hostTurn s = .next t) :
    (s.program = [] ∧ t = s) ∨
      (∃ rest, s.program = .wait :: rest ∧
        t = (if waitOver (status s) then { returnValue s (status s) with program := rest }
          else returnValue s (status s))) ∨
      ∃ a rest i, s.program = .access a :: rest ∧ decodeAccess s.platform.regBase a = .ok i ∧
        exec i { s with program := rest } = .next t := by
  unfold hostTurn at h
  split at h
  · exact .inl ⟨‹_›, (Host.Outcome.next.inj h).symm⟩
  · exact .inr (.inl ⟨_, ‹_›, (Host.Outcome.next.inj h).symm⟩)
  · split at h
    · exact .inr (.inr ⟨_, _, _, ‹_›, ‹_›, h⟩)
    · cases h

/-- The next turn finds the state as it is, or with the schedule's first turn taken off. -/
theorem nextTurn_cases (s : State) :
    (s.schedule = [] ∧ nextTurn s = (defaultTurn s, s)) ∨
      ∃ turn rest, s.schedule = turn :: rest ∧ nextTurn s = (turn, { s with schedule := rest }) := by
  unfold nextTurn
  cases h : s.schedule with
  | nil => exact .inl ⟨rfl, rfl⟩
  | cons turn rest => exact .inr ⟨turn, rest, rfl, rfl⟩

/-- The default turn is the sequencer's or the host's. -/
theorem defaultTurn_cases (s : State) :
    (defaultTurn s = .sequencer ∧ (busy s = true ∨ s.program = [])) ∨
      (defaultTurn s = .host ∧ busy s = false ∧ s.program ≠ []) := by
  unfold defaultTurn
  split_ifs with h1 h2
  · exact .inl ⟨rfl, .inl h1⟩
  · exact .inl ⟨rfl, .inr h2⟩
  · exact .inr ⟨rfl, by simpa using h1, h2⟩

end Sys2Proof.Machine
end

