-- ==== Sys2Proof/Laws/PerInstr.lean ====
section
/-! SUPPORT. One family over all instructions: the encoder writes legal encodings only (30_encoding.md R75). -/

namespace Sys2Proof.Laws

/-- The encoding of the instruction is legal: no reserved stage code, no misaligned offset (R75). -/
def EncodesLegally.Statement (i : Instr) : Prop := (encode i).wf = true

/-- A bus word whose key is a multiple of 8 is legal, whatever its data. -/
theorem busWord_wf (key : BitVec 7) (data : Word) (h : key.toNat % 8 = 0) :
    (Encoded.bus (packBus key data)).wf = true := by
  have hw : (packBus key data).toNat = data.toNat * 2 ^ 7 + key.toNat := by
    have := BitVec.toNat_append data key
    rw [← Nat.shiftLeft_add_eq_or_of_lt key.isLt, Nat.shiftLeft_eq] at this
    exact this
  simp only [Encoded.wf, hw, beq_iff_eq]
  omega

theorem EncodesLegally.idle : EncodesLegally.Statement .idle := rfl
theorem EncodesLegally.init : EncodesLegally.Statement .init := rfl
theorem EncodesLegally.block : EncodesLegally.Statement .block := rfl
theorem EncodesLegally.fold : EncodesLegally.Statement .fold := rfl
theorem EncodesLegally.tail25 : EncodesLegally.Statement .tail25 := rfl
theorem EncodesLegally.tail17 : EncodesLegally.Statement .tail17 := rfl
theorem EncodesLegally.tail9 : EncodesLegally.Statement .tail9 := rfl
theorem EncodesLegally.tail1 : EncodesLegally.Statement .tail1 := rfl
theorem EncodesLegally.final : EncodesLegally.Statement .final := rfl
theorem EncodesLegally.faulted : EncodesLegally.Statement .faulted := rfl
theorem EncodesLegally.start (data : Word) : EncodesLegally.Statement (.start data) := busWord_wf _ data (by decide)
theorem EncodesLegally.wrDataAddr (data : Word) : EncodesLegally.Statement (.wrDataAddr data) := busWord_wf _ data (by decide)
theorem EncodesLegally.wrLen (data : Word) : EncodesLegally.Statement (.wrLen data) := busWord_wf _ data (by decide)
theorem EncodesLegally.wrSeed (data : Word) : EncodesLegally.Statement (.wrSeed data) := busWord_wf _ data (by decide)
theorem EncodesLegally.wrStatusIgnored (data : Word) : EncodesLegally.Statement (.wrStatusIgnored data) := busWord_wf _ data (by decide)
theorem EncodesLegally.wrDigestIgnored (data : Word) : EncodesLegally.Statement (.wrDigestIgnored data) := busWord_wf _ data (by decide)
theorem EncodesLegally.wrCauseIgnored (data : Word) : EncodesLegally.Statement (.wrCauseIgnored data) := busWord_wf _ data (by decide)
theorem EncodesLegally.wrFaultAddrIgnored (data : Word) : EncodesLegally.Statement (.wrFaultAddrIgnored data) := busWord_wf _ data (by decide)
theorem EncodesLegally.rdCtrl : EncodesLegally.Statement .rdCtrl := busWord_wf _ 0 (by decide)
theorem EncodesLegally.rdStatus : EncodesLegally.Statement .rdStatus := busWord_wf _ 0 (by decide)
theorem EncodesLegally.rdDataAddr : EncodesLegally.Statement .rdDataAddr := busWord_wf _ 0 (by decide)
theorem EncodesLegally.rdLen : EncodesLegally.Statement .rdLen := busWord_wf _ 0 (by decide)
theorem EncodesLegally.rdSeed : EncodesLegally.Statement .rdSeed := busWord_wf _ 0 (by decide)
theorem EncodesLegally.rdDigest : EncodesLegally.Statement .rdDigest := busWord_wf _ 0 (by decide)
theorem EncodesLegally.rdCause : EncodesLegally.Statement .rdCause := busWord_wf _ 0 (by decide)
theorem EncodesLegally.rdFaultAddr : EncodesLegally.Statement .rdFaultAddr := busWord_wf _ 0 (by decide)

end Sys2Proof.Laws
end

