-- ==== Sys2Proof/Laws/Primes.lean ====
section
/-! SUPPORT. The seven words that D3 proposes for PRIME are primes, by Lucas' test with the factors of p - 1 listed. -/

namespace Sys2Proof

/-- `a ^ e % m` by repeated squaring, for exponents of at most `bits` bits. -/
def powMod (m : Nat) : (bits a e : Nat) → Nat
  | 0, _, _ => 1 % m
  | bits + 1, a, e =>
    if e % 2 = 1 then a * powMod m bits (a * a % m) (e / 2) % m else powMod m bits (a * a % m) (e / 2)

theorem powMod_eq {m bits a e : Nat} (h : e < 2 ^ bits) : powMod m bits a e = a ^ e % m := by
  induction bits generalizing a e with
  | zero => simp [powMod, Nat.lt_one_iff.mp h]
  | succ bits ih =>
    have square : (a * a % m) ^ (e / 2) % m = a ^ (2 * (e / 2)) % m := by rw [← Nat.pow_mod, pow_mul, pow_two]
    rw [powMod, ih (by omega), square]
    split_ifs with hodd
    · rw [Nat.mul_mod_mod, ← pow_succ', show 2 * (e / 2) + 1 = e by omega]
    · rw [show 2 * (e / 2) = e by omega]

/-- Lucas' test for a number of at most 64 bits. -/
theorem prime_of_lucas {p : Nat} (a : Nat) (factors : List Nat)
    (hprod : p ≤ 2 ^ 64 ∧ factors.prod = p - 1) (hprime : factors.Forall Nat.Prime)
    (hpow : powMod p 64 a (p - 1) = 1 ∧ ∀ q ∈ factors, powMod p 64 a ((p - 1) / q) ≠ 1) : p.Prime := by
  replace hprime := List.forall_iff_forall_mem.mp hprime
  have hp : 1 < p := by
    by_contra h
    obtain rfl | rfl : p = 0 ∨ p = 1 := by omega
    · exact Nat.not_prime_zero (hprime 0 (List.prod_eq_zero_iff.mp hprod.2))
    · exact absurd (hpow.1.symm.trans (powMod_eq (by decide))) (by simp)
  have small : ∀ q, (p - 1) / q < 2 ^ 64 := fun q => (Nat.div_le_self _ q).trans_lt (by omega)
  have cast : ∀ e, (a : ZMod p) ^ e = 1 ↔ a ^ e % p = 1 := fun e => by
    rw [← Nat.cast_pow, ← Nat.cast_one, ZMod.natCast_eq_natCast_iff', Nat.mod_eq_of_lt hp]
  refine lucas_primality p a ((cast _).mpr ((powMod_eq (by have := hprod.1; omega)).symm.trans hpow.1)) fun q hq hdvd h => ?_
  obtain ⟨r, hr, hqr⟩ := (Prime.dvd_prod_iff hq.prime).mp (hprod.2 ▸ hdvd)
  rw [(Nat.prime_dvd_prime_iff_eq hq (hprime r hr)).mp hqr] at h
  exact hpow.2 r hr ((powMod_eq (small r)).trans ((cast _).mp h))

theorem prime_1149901 : Nat.Prime 1149901 :=
  prime_of_lucas 2 [2, 2, 3, 5, 5, 3833] (by decide) ⟨by norm_num, by norm_num, by norm_num, by norm_num, by norm_num, by norm_num⟩ (by decide)

theorem prime_81530280703 : Nat.Prime 81530280703 :=
  prime_of_lucas 5 [2, 3, 3, 3, 13, 101, 1149901] (by decide) ⟨by norm_num, by norm_num, by norm_num, by norm_num, by norm_num, by norm_num, prime_1149901⟩ (by decide)

theorem prime_20911087 : Nat.Prime 20911087 :=
  prime_of_lucas 3 [2, 3, 3, 7, 165961] (by decide) ⟨by norm_num, by norm_num, by norm_num, by norm_num, by norm_num⟩ (by decide)

theorem prime_17048867929148541611 : Nat.Prime 17048867929148541611 :=
  prime_of_lucas 2 [2, 5, 20911087, 81530280703] (by decide) ⟨by norm_num, by norm_num, prime_20911087, prime_81530280703⟩ (by decide)

theorem prime_98192672093539 : Nat.Prime 98192672093539 :=
  prime_of_lucas 3 [2, 3, 3, 3, 11, 17, 29, 2503, 133963] (by decide) ⟨by norm_num, by norm_num, by norm_num, by norm_num, by norm_num, by norm_num, by norm_num, by norm_num, by norm_num⟩ (by decide)

theorem prime_9386433910765580089 : Nat.Prime 9386433910765580089 :=
  prime_of_lucas 13 [2, 2, 2, 3, 7, 569, 98192672093539] (by decide) ⟨by norm_num, by norm_num, by norm_num, by norm_num, by norm_num, by norm_num, prime_98192672093539⟩ (by decide)

theorem prime_137318971661 : Nat.Prime 137318971661 :=
  prime_of_lucas 2 [2, 2, 5, 13, 6271, 84221] (by decide) ⟨by norm_num, by norm_num, by norm_num, by norm_num, by norm_num, by norm_num⟩ (by decide)

theorem prime_306877691488569581 : Nat.Prime 306877691488569581 :=
  prime_of_lucas 2 [2, 2, 5, 19, 5881, 137318971661] (by decide) ⟨by norm_num, by norm_num, by norm_num, by norm_num, by norm_num, prime_137318971661⟩ (by decide)

theorem prime_15343884574428479051 : Nat.Prime 15343884574428479051 :=
  prime_of_lucas 2 [2, 5, 5, 306877691488569581] (by decide) ⟨by norm_num, by norm_num, by norm_num, prime_306877691488569581⟩ (by decide)

theorem prime_1602451 : Nat.Prime 1602451 :=
  prime_of_lucas 2 [2, 3, 3, 3, 5, 5, 1187] (by decide) ⟨by norm_num, by norm_num, by norm_num, by norm_num, by norm_num, by norm_num, by norm_num⟩ (by decide)

theorem prime_842889227 : Nat.Prime 842889227 :=
  prime_of_lucas 5 [2, 263, 1602451] (by decide) ⟨by norm_num, by norm_num, prime_1602451⟩ (by decide)

theorem prime_13662985319504319857 : Nat.Prime 13662985319504319857 :=
  prime_of_lucas 3 [2, 2, 2, 2, 19457, 52069, 842889227] (by decide) ⟨by norm_num, by norm_num, by norm_num, by norm_num, by norm_num, by norm_num, prime_842889227⟩ (by decide)

theorem prime_8750921 : Nat.Prime 8750921 :=
  prime_of_lucas 6 [2, 2, 2, 5, 17, 17, 757] (by decide) ⟨by norm_num, by norm_num, by norm_num, by norm_num, by norm_num, by norm_num, by norm_num⟩ (by decide)

theorem prime_490051577 : Nat.Prime 490051577 :=
  prime_of_lucas 6 [2, 2, 2, 7, 8750921] (by decide) ⟨by norm_num, by norm_num, by norm_num, by norm_num, prime_8750921⟩ (by decide)

theorem prime_47206543 : Nat.Prime 47206543 :=
  prime_of_lucas 3 [2, 3, 1543, 5099] (by decide) ⟨by norm_num, by norm_num, by norm_num, by norm_num⟩ (by decide)

theorem prime_11242949449147999147 : Nat.Prime 11242949449147999147 :=
  prime_of_lucas 3 [2, 3, 3, 3, 3, 3, 47206543, 490051577] (by decide) ⟨by norm_num, by norm_num, by norm_num, by norm_num, by norm_num, by norm_num, prime_47206543, prime_490051577⟩ (by decide)

theorem prime_13469698308701 : Nat.Prime 13469698308701 :=
  prime_of_lucas 2 [2, 2, 5, 5, 23, 167, 181, 313, 619] (by decide) ⟨by norm_num, by norm_num, by norm_num, by norm_num, by norm_num, by norm_num, by norm_num, by norm_num, by norm_num⟩ (by decide)

theorem prime_13862205317416547141 : Nat.Prime 13862205317416547141 :=
  prime_of_lucas 2 [2, 2, 5, 7, 7351, 13469698308701] (by decide) ⟨by norm_num, by norm_num, by norm_num, by norm_num, by norm_num, prime_13469698308701⟩ (by decide)

theorem prime_392410999 : Nat.Prime 392410999 :=
  prime_of_lucas 7 [2, 3, 3, 7, 197, 15809] (by decide) ⟨by norm_num, by norm_num, by norm_num, by norm_num, by norm_num, by norm_num⟩ (by decide)

theorem prime_14653293970879851569 : Nat.Prime 14653293970879851569 :=
  prime_of_lucas 3 [2, 2, 2, 2, 38971, 59887, 392410999] (by decide) ⟨by norm_num, by norm_num, by norm_num, by norm_num, by norm_num, by norm_num, prime_392410999⟩ (by decide)

/-- The proposed PRIME is seven odd primes, as R3 asks. -/
theorem Rom.proposed_oddPrimes : Rom.proposed.oddPrimes := by
  simp only [Rom.oddPrimes, Rom.words, Rom.proposed, List.forall_mem_cons]
  exact ⟨⟨prime_17048867929148541611, by decide⟩,
    ⟨prime_9386433910765580089, by decide⟩,
    ⟨prime_15343884574428479051, by decide⟩,
    ⟨prime_13662985319504319857, by decide⟩,
    ⟨prime_11242949449147999147, by decide⟩,
    ⟨prime_13862205317416547141, by decide⟩,
    ⟨prime_14653293970879851569, by decide⟩,
    fun _ h => absurd h List.not_mem_nil⟩

/-- The assumed platform is legal. -/
theorem Platform.assumed_wf : Platform.assumed.wf := ⟨by decide, Rom.proposed_oddPrimes⟩

end Sys2Proof
end

