-- ==== Sys2Proof/Laws/Reads.lean ====
section
/-! SUPPORT. The read set: what a step adds to it, and what a faulting step has read. -/

namespace Sys2Proof.Machine

/-- Nothing read is the empty range. -/
theorem ReadsCover.nil (p : Nat) : ReadsCover [] p p :=
  ⟨fun _ => ⟨fun ⟨_, h, _⟩ => absurd h List.not_mem_nil, fun ⟨h1, h2⟩ => absurd h2 (Nat.not_lt.mpr h1)⟩,
    fun _ h => absurd h List.not_mem_nil, List.Pairwise.nil⟩

/-- A step whose addresses all lie at or above those of the steps before keeps the steps ascending. -/
theorem StepsAscend.snoc {reads : List (List Nat)} {addrs : List Nat} {p : Nat} (h : StepsAscend reads)
    (hbelow : ∀ step ∈ reads, ∀ a ∈ step, a < p) (habove : ∀ b ∈ addrs, p ≤ b) : StepsAscend (reads ++ [addrs]) :=
  List.pairwise_append.mpr ⟨h, List.pairwise_singleton _ _, fun _ hx _ hy a ha b hb =>
    (hbelow _ hx a ha).trans_le (habove b (List.mem_singleton.mp hy ▸ hb))⟩

/-- A step that reads the `k` addresses from the end on extends the range by `k`. -/
theorem ReadsCover.snoc {reads : List (List Nat)} {first last : Nat} (k : Nat) (h : ReadsCover reads first last)
    (hle : first ≤ last) : ReadsCover (reads ++ [List.range' last k]) first (last + k) where
  covers x := by
    have := h.covers x
    simp only [List.mem_append, List.mem_singleton, or_and_right, exists_or, this, exists_eq_left,
      List.mem_range'_1]
    omega
  once addrs ha := by
    rcases List.mem_append.mp ha with ha | ha
    · exact h.once addrs ha
    · exact List.mem_singleton.mp ha ▸ List.nodup_range'
  ascend := h.ascend.snoc (fun step hs a ha => ((h.covers a).mp ⟨step, hs, ha⟩).2) fun b hb => (List.mem_range'_1.mp hb).1

/-- A faulting step has read addresses it asked for: the faulting one, and such that MemRead answers. -/
theorem mem_faultedReads {s : State} {p k addr x : Nat} :
    x ∈ faultedReads s p k addr ↔
      (p ≤ x ∧ x < p + k) ∧
        (x = addr ∨ (∃ byte, memRead s x = .ok byte) ∧ Config.readBeforeFault s.draws x = true) := by
  have hok : (memRead s x).isOk = true ↔ ∃ byte, memRead s x = .ok byte := by
    cases memRead s x <;> simp [ReadResult.isOk]
  simp [faultedReads, List.mem_range'_1, hok]

theorem faultedReads_nodup (s : State) (p k addr : Nat) : (faultedReads s p k addr).Nodup :=
  List.Nodup.filter _ List.nodup_range'

end Sys2Proof.Machine
end

