-- ==== Sys2Proof/Tests/Slice0.lean ====
section
/-! SUPPORT. Tests: ill-formed terms are refused, hand-written encodings decode, single steps give the vectors of 95_test_vectors.md, and every statement with hypotheses has a state that meets them. -/

namespace Sys2Proof.Machine.Tests

/-! ### Helpers -/

/-- The outcome is a next state for which `p` holds. -/
def answers (o : Host.Outcome State Fault Refusal) (p : State → Bool) : Bool :=
  match o with
  | .next t => p t
  | _ => false

/-- Byte `i` at `p + i`, for `i` below `k` ("bytes i" of 95_test_vectors.md). -/
def counting (p k : Nat) : Memory := (List.range k).map fun i => (p + i, BitVec.ofNat 8 i)

/-- The given bytes from `p` on. -/
def cells (p : Nat) (bytes : List Byte) : Memory := bytes.zipIdx.map fun x => (p + x.2, x.1)

/-- An accepted operation on `k` bytes at `p`, over memory `m`, before INIT. -/
def accepted (m : Memory) (p k : Nat) : State :=
  { State.reset with stage := stageInit, ptr := BitVec.ofNat 65 p, lenL := BitVec.ofNat 64 k, mem := m }

/-- The 33-byte example of R131 after INIT (95_test_vectors.md P2). -/
def afterInit33 : State :=
  { accepted (counting 0x1000 33) 0x1000 33 with
    stage := stageBlock, n := 33, b := 0x21, c := 0x0010800000000000, d := 0x21 }

/-- The 33-byte example after BLOCK. -/
def afterBlock33 : State :=
  { afterInit33 with
    stage := stageFold, ptr := 0x1020, n := 1
    a := 0x5E6FA40339DACBD9, b := 0xC878B17874A1FCA6, c := 0x8212010080038302, d := 0xE9EBEDEFE1E3E5E8 }

/-- A tail stage of the 32-byte input of 95_test_vectors.md section 3.5, with `k` bytes left. -/
def tailOf32 (stage : BitVec 4) (k : Nat) (a b : Word) : State :=
  { accepted (counting 0x1000 32) 0x1000 32 with
    stage := stage, ptr := BitVec.ofNat 65 (0x1020 - k), n := BitVec.ofNat 64 k, a := a, b := b }

/-- Program P4 before its faulting TAIL1: five bytes claimed, four readable. -/
def beforeP4Fault : State :=
  { accepted (cells 0x2000 [0x11, 0x22, 0x33, 0x44]) 0x2000 5 with
    stage := stageTail1, n := 5, b := 5, c := 0x0002800000000000, d := 5 }

/-- P4 in FAULTED, the step having read all bytes up to the faulting one: one of the records R55 allows. -/
def afterP4Fault : State :=
  { beforeP4Fault with
    stage := stageFaulted, cause := 1, faultAddr := 0x2004, reads := [List.range' 0x2000 5], draws := 1 }

/-- One line of the host, on its turn. -/
def withLine (s : State) (l : HostLine) : State := { s with program := [l], schedule := [.host] }

/-- A window at 0x4000 and one host access on its turn. -/
def withAccess (dir : Direction) (addr width : Nat) (data : Word) : State :=
  withLine { State.reset with platform := { Platform.assumed with regBase := 0x4000 } }
    (.access { dir := dir, addr := addr, width := width, data := data })

/-- `s` with read side effects at `addr`. -/
def withSideEffect (s : State) (addr : Nat) : State :=
  { s with platform := { s.platform with sideEffects := [⟨addr, 1⟩] } }

/-! ### WellFormed: each check refuses an ill-formed term -/

theorem test_wf_reserved_stage_9 : (Encoded.stage 0x9).wf = false := by decide
theorem test_wf_reserved_stage_e : (Encoded.stage 0xE).wf = false := by decide
theorem test_wf_stage_8_and_f : (Encoded.stage 0x8).wf = true ∧ (Encoded.stage 0xF).wf = true := by decide
theorem test_wf_bus_offset_4 : (Encoded.bus (packBus 0b1000100#7 1)).wf = false := by decide
theorem test_wf_access_width_32 : BusAccess.wf 0x4000 ⟨.write, 0x4018, 32, 1⟩ = false := by decide
theorem test_wf_access_below_window : BusAccess.wf 0x4000 ⟨.write, 0x3FF8, 64, 1⟩ = false := by decide
theorem test_wf_access_above_window : BusAccess.wf 0x4000 ⟨.write, 0x4040, 64, 1⟩ = false := by decide
theorem test_wf_access_misaligned : BusAccess.wf 0x4000 ⟨.write, 0x4004, 64, 1⟩ = false := by decide
theorem test_wf_access_legal : BusAccess.wf 0x4000 ⟨.read, 0x4038, 64, 0⟩ = true := by decide
theorem test_wf_platform_addrw_0 : ¬({ Platform.assumed with addrW := 0 } : Platform).wf := fun h =>
  absurd h.1 (by decide)
theorem test_wf_platform_addrw_65 : ¬({ Platform.assumed with addrW := 65 } : Platform).wf := fun h =>
  absurd h.1 (by decide)
theorem test_wf_platform_even_prime : ¬({ Platform.assumed with rom := { Rom.proposed with p3 := 2 } } : Platform).wf :=
  fun h => absurd (h.2 2 (by simp [Rom.words])).2 (by decide)
theorem test_wf_platform_odd_composite : ¬({ Platform.assumed with rom := { Rom.proposed with p6 := 9 } } : Platform).wf :=
  fun h => absurd (h.2 9 (by simp [Rom.words])).1 (show ¬Nat.Prime 9 by norm_num)
theorem test_wf_platform_assumed : Platform.assumed.wf := Platform.assumed_wf

/-! ### Decoding: every row's code written out from R70 and R74 -/

theorem test_decode_stages :
    decode (.stage 0b0000#4) = .ok .idle ∧ decode (.stage 0b0001#4) = .ok .init ∧
      decode (.stage 0b0010#4) = .ok .block ∧ decode (.stage 0b0011#4) = .ok .fold ∧
      decode (.stage 0b0100#4) = .ok .tail25 ∧ decode (.stage 0b0101#4) = .ok .tail17 ∧
      decode (.stage 0b0110#4) = .ok .tail9 ∧ decode (.stage 0b0111#4) = .ok .tail1 ∧
      decode (.stage 0b1000#4) = .ok .final ∧ decode (.stage 0b1111#4) = .ok .faulted :=
  ⟨rfl, rfl, rfl, rfl, rfl, rfl, rfl, rfl, rfl, rfl⟩

theorem test_decode_reserved_stages :
    decode (.stage 0b1001#4) = .error (.reservedStage 9) ∧ decode (.stage 0b1110#4) = .error (.reservedStage 14) :=
  ⟨rfl, rfl⟩

theorem test_decode_writes :
    decode (.bus (packBus 0b1000000#7 1)) = .ok (.start 1) ∧
      decode (.bus (packBus 0b1010000#7 0x1000)) = .ok (.wrDataAddr 0x1000) ∧
      decode (.bus (packBus 0b1011000#7 33)) = .ok (.wrLen 33) ∧
      decode (.bus (packBus 0b1100000#7 7)) = .ok (.wrSeed 7) ∧
      decode (.bus (packBus 0b1001000#7 5)) = .ok (.wrStatusIgnored 5) ∧
      decode (.bus (packBus 0b1101000#7 5)) = .ok (.wrDigestIgnored 5) ∧
      decode (.bus (packBus 0b1110000#7 5)) = .ok (.wrCauseIgnored 5) ∧
      decode (.bus (packBus 0b1111000#7 5)) = .ok (.wrFaultAddrIgnored 5) :=
  ⟨rfl, rfl, rfl, rfl, rfl, rfl, rfl, rfl⟩

theorem test_decode_reads :
    decode (.bus 0b0000000#71) = .ok .rdCtrl ∧ decode (.bus 0b0001000#71) = .ok .rdStatus ∧
      decode (.bus 0b0010000#71) = .ok .rdDataAddr ∧ decode (.bus 0b0011000#71) = .ok .rdLen ∧
      decode (.bus 0b0100000#71) = .ok .rdSeed ∧ decode (.bus 0b0101000#71) = .ok .rdDigest ∧
      decode (.bus 0b0110000#71) = .ok .rdCause ∧ decode (.bus 0b0111000#71) = .ok .rdFaultAddr :=
  ⟨rfl, rfl, rfl, rfl, rfl, rfl, rfl, rfl⟩

theorem test_decode_refused_offsets :
    decode (.bus (packBus 0b1000100#7 1)) = .error (.misalignedOffset 4) ∧
      decode (.bus (packBus 0b0111111#7 0)) = .error (.misalignedOffset 63) :=
  ⟨rfl, rfl⟩

/-- Every bit of the data reaches the instruction. -/
theorem test_decode_all_data_bits :
    decode (.bus 0x7FFFFFFFFFFFFFFFD8#71) = .ok (.wrLen 0xFFFFFFFFFFFFFFFF) := rfl

theorem test_decode_access :
    decodeAccess 0x4000 ⟨.write, 0x4018, 64, 33⟩ = .ok (.wrLen 33) ∧
      decodeAccess 0x4000 ⟨.read, 0x4018, 64, 33⟩ = .ok .rdLen := ⟨rfl, rfl⟩

/-- The table's numbers: 4-bit stage codes and 7-bit keys in whole bytes; 0x00 and 0x08 read as stages (log 12). -/
theorem test_table_words :
    decodeTableWord 8 0x2 = some .block ∧ decodeTableWord 8 0x50 = some (.wrDataAddr 0) ∧
      decodeTableWord 8 0x28 = some .rdDigest ∧ decodeTableWord 8 0x9 = none ∧
      decodeTableWord 8 0x08 = some .final ∧ decodeTableWord 7 0x08 = some .rdStatus := by decide

/-- withFetchWord: the next step from reset runs the placed instruction. -/
theorem test_fetch_word_runs :
    answers (step (State.reset.withFetchWord 8 0x0F)) (fun t => t.stage == stageFaulted) = true ∧
      answers (step (State.reset.withFetchWord 8 0x08)) (fun t => t.done && t.stage == stageIdle) = true ∧
      answers (step ({ State.reset with digest := 9 }.withFetchWord 8 0x28)) (fun t => t.readData == 9) = true := by
  decide

/-! ### The loader and the primitives (95_test_vectors.md 3.1, 3.2) -/

theorem test_load64_unaligned :
    load64 (accepted (counting 0x1000 16) 0x1000 16) 0x1001 = .ok 0x0807060504030201 := by decide

theorem test_loads_narrow :
    load32 (accepted (cells 0x10 [1, 2, 3, 4]) 0 0) 0x10 = .ok 0x04030201 ∧
      load16 (accepted (cells 0x10 [0x34, 0x12]) 0 0) 0x10 = .ok 0x1234 ∧
      load8 (accepted (cells 0x10 [0xFF]) 0 0) 0x10 = .ok 0xFF := by decide

theorem test_tail64_reads_three :
    tail64 (accepted (cells 0x10 [0xAA, 0xBB, 0xCC]) 0 0) 0x10 3 = some (.ok 0xCCBBAA) := by decide

theorem test_load64_faults_at_last_byte :
    load64 (accepted (counting 0x10 7) 0 0) 0x10 = .refused 0x17 := by decide

theorem test_load_above_address_space :
    load8 { accepted [(0x10000, 1)] 0 0 with platform := { Platform.assumed with addrW := 16 } } 0x10000 =
      .refused 0x10000 := by decide

theorem test_rotr :
    rotr 0x0123456789ABCDEF 0 = 0x0123456789ABCDEF ∧ rotr 0x0123456789ABCDEF 17 = 0xE6F78091A2B3C4D5 ∧
      rotr 0x0123456789ABCDEF 31 = 0x13579BDE02468ACF ∧ rotr 0x0123456789ABCDEF 41 = 0xB3C4D5E6F78091A2 ∧
      rotr 0x0123456789ABCDEF 63 = 0x02468ACF13579BDE := by decide

theorem test_mix :
    mix 1 3 = 0x0000000001800003 ∧ mix 0xFFFFFFFFFFFFFFFF 0xEC99BF0D8372CAAB = 0x6A580668D6048675 := by
  decide

theorem test_mux64 :
    mux64 1 3 = 3 ∧ mux64 0xFFFFFFFFFFFFFFFF 2 = 0xFFFFFFFFFFFFFFFF ∧
      mux64 0x0123456789ABCDEF 0x9C06FAF4D023E3AB = 0x1C22C4EBE5A9847A := by decide

theorem test_mul128_partial :
    mul128Partial 0x0123456789ABCDEF 0x9C06FAF4D023E3AB = 0x00B1863C40A3FFDF1C9342D7A50A7BA5#128 := by
  decide

theorem test_dispatch_boundaries :
    [0, 1, 8, 9, 16, 17, 24, 25, 32].map (fun n => dispatch (BitVec.ofNat 64 n)) =
      [0x8, 0x7, 0x7, 0x6, 0x6, 0x5, 0x5, 0x4, 0x4] := by decide

/-! ### One step of each instruction (95_test_vectors.md 3.3 to 3.8) -/

theorem test_idle_stays : answers (step State.reset) (· == State.reset) = true := by decide

theorem test_init_33 :
    answers (step (accepted [] 0x1000 33)) (fun t =>
      t.a == 0 && t.b == 0x21 && t.c == 0x0010800000000000 && t.d == 0x21 && t.n == 33 && t.stage == stageBlock) =
        true := by decide

theorem test_init_range_fault :
    answers (step (accepted [] 0xFFFFFFFFFFFFFFF0 0x20)) (fun t =>
      t.cause == 2 && t.faultAddr == 0xFFFFFFFFFFFFFFF0 && t.stage == stageFaulted && t.reads == []) = true := by
  decide

theorem test_block_33 : answers (step afterInit33) (fun t =>
    t == { afterBlock33 with reads := [List.range' 0x1000 32] }) = true := by decide

/-- Bytes 0x3010 and 0x3018 are unreadable: the lower one is reported. -/
theorem test_block_read_fault :
    answers (step { accepted (counting 0x3000 40) 0x3000 40 with
        stage := stageBlock, n := 40, b := 0x28
        mem := (counting 0x3000 40).filter fun x => x.1 != 0x3010 && x.1 != 0x3018 }) (fun t =>
      t.cause == 1 && t.faultAddr == 0x3010 && t.stage == stageFaulted && t.b == 0x28 && t.ptr == 0x3000 && t.n == 40) =
        true := by decide

theorem test_fold_33 : answers (step afterBlock33) (fun t =>
    t.a == 0x193349A45F870640 && t.b == 0xBA526ABA2FA015D9 && t.stage == stageTail1) = true := by decide

theorem test_tail25 : answers (step (tailOf32 stageTail25 32 0 0x20)) (fun t =>
    t.b == 0xD61F3A7BC47C76AF && t.n == 24 && t.ptr == 0x1008 && t.stage == stageTail17) = true := by decide

theorem test_tail17 : answers (step (tailOf32 stageTail17 24 0 0xD61F3A7BC47C76AF)) (fun t =>
    t.a == 0x0F4CE2F04B9BACED && t.n == 16 && t.stage == stageTail9) = true := by decide

theorem test_tail9 : answers (step (tailOf32 stageTail9 16 0x0F4CE2F04B9BACED 0xD61F3A7BC47C76AF)) (fun t =>
    t.b == 0x8F263AD4EF55D1C9 && t.n == 8 && t.stage == stageTail1) = true := by decide

theorem test_tail1 : answers (step (tailOf32 stageTail1 8 0x0F4CE2F04B9BACED 0x8F263AD4EF55D1C9)) (fun t =>
    t.a == 0x2CEBB9451129A736 && t.n == 0 && t.ptr == 0x1020 && t.stage == stageFinal) = true := by decide

theorem test_tail1_read_fault :
    answers (step beforeP4Fault) (fun t => { t with reads := afterP4Fault.reads } == afterP4Fault) = true := by decide

theorem test_final :
    answers (step (tailOf32 stageFinal 0 0x2CEBB9451129A736 0x8F263AD4EF55D1C9)) (fun t =>
      t.digest == 0x3F2977798F83D313 && t.done && t.stage == stageIdle && status t == 0x2) = true := by decide

/-- The tail17 input reaching the top of the address space does not fault, and PTR becomes 2^64. -/
theorem test_tail1_top_of_space :
    answers (step { accepted (counting 0xFFFFFFFFFFFFFFF8 8) 0xFFFFFFFFFFFFFFF8 8 with stage := stageTail1, n := 8 })
      (fun t => t.ptr == 0x10000000000000000 && t.stage == stageFinal) = true := by decide

theorem test_faulted_ignores_start :
    answers (exec .faulted afterP4Fault) (· == afterP4Fault) = true ∧
      answers (exec (.start 1) afterP4Fault) (· == afterP4Fault) = true := by decide

theorem test_start_latches :
    answers (exec (.start 3) { State.reset with dataAddr := 0x1000, len := 33, seed := 7, done := true }) (fun t =>
      t.ptr == 0x1000 && t.lenL == 33 && t.seedL == 7 && !t.done && t.stage == stageInit) = true := by decide

theorem test_start_without_bit_0 : answers (exec (.start 2) State.reset) (· == State.reset) = true := by decide

theorem test_write_arguments :
    answers (exec (.wrDataAddr 5) afterInit33) (· == { afterInit33 with dataAddr := 5 }) = true ∧
      answers (exec (.wrLen 1) afterInit33) (fun t => t.len == 1 && t.lenL == 33) = true ∧
      answers (exec (.wrSeed 6) afterInit33) (fun t => t.seed == 6 && t.seedL == 0) = true := by decide

theorem test_ignored_writes :
    [Instr.wrStatusIgnored 1, .wrDigestIgnored 1, .wrCauseIgnored 1, .wrFaultAddrIgnored 1].all
      (fun i => answers (exec i afterP4Fault) (· == afterP4Fault)) = true := by decide

theorem test_status_values :
    [0x0, 0x1, 0x2, 0x3, 0x4, 0x5, 0x6, 0x7, 0x8, 0xF].map (fun c => status { State.reset with stage := c }) =
      [0x0, 0x101, 0x201, 0x301, 0x401, 0x501, 0x601, 0x701, 0x801, 0xF04] ∧
        status { State.reset with done := true } = 0x2 := by decide

theorem test_reads_after_fault :
    answers (exec .rdStatus afterP4Fault) (fun t => t.readData == 0xF04) = true ∧
      answers (exec .rdCause afterP4Fault) (fun t => t.readData == 1) = true ∧
      answers (exec .rdFaultAddr afterP4Fault) (fun t => t.readData == 0x2004) = true ∧
      answers (exec .rdCtrl { afterP4Fault with readData := 9 }) (fun t => t.readData == 0) = true := by decide

theorem test_reads_of_values :
    answers (exec .rdDataAddr { State.reset with dataAddr := 1 }) (fun t => t.readData == 1) = true ∧
      answers (exec .rdLen { State.reset with len := 2 }) (fun t => t.readData == 2) = true ∧
      answers (exec .rdSeed { State.reset with seed := 3 }) (fun t => t.readData == 3) = true ∧
      answers (exec .rdDigest { State.reset with digest := 4 }) (fun t => t.readData == 4) = true := by decide

/-- A store of the byte already there is no change, and one to an address that is not readable has no effect (log 7, 9). -/
theorem test_store_without_change :
    storeByte beforeP4Fault 0x2000 0x11 = beforeP4Fault ∧ storeByte beforeP4Fault 0x2004 0x55 = beforeP4Fault := by
  decide

/-! ### Witnesses: for every statement with hypotheses, a state and operands that meet them, at the boundaries -/

/-- An operation on the five bytes 0..4 at 0x2000, before INIT. -/
def ready5 : State := accepted (counting 0x2000 5) 0x2000 5

/-- A platform access on the host's turn, in a block that is running. -/
def running5 : State := { ready5 with stage := stageTail1, n := 5, b := 5, c := 0x0002800000000000, d := 5 }

/-- An operation on an input that ends exactly at 2^64. -/
def atTop : State := accepted (counting 0xFFFFFFFFFFFFFFF0 16) 0xFFFFFFFFFFFFFFF0 16

/-- What `counting` holds. -/
def countingByte (i : Nat) : Byte := BitVec.ofNat 8 i

/-- The invariant for a state without draws and faults whose operation runs, its conjuncts decided one by one. -/
theorem inv_of_running {s : State} (hp : s.platform.wf)
    (h1 : Memory.wf s.mem ∧ s.drawn = [] ∧ s.done = false ∧ s.cause = 0 ∧ s.faultAddr = 0)
    (h2 : ∀ cell ∈ s.mem, cell.1 < 2 ^ s.platform.addrW) (h3 : stageCodeReserved s.stage = false ∧ s.stage ≠ stageFaulted)
    (h4 : s.stage = stageInit → s.ptr.toNat < 2 ^ 64 ∧ s.reads = [])
    (h5 : s.reads = [] ∧ (pastInit s = true → CountsOk s ∧ consumed s = 0))
    (h6 : StageCounts s) : Inv s := by
  obtain ⟨hm, hd, hdone, hc, hf⟩ := h1
  exact
    { platform := hp, memory := hm, memoryBelow := h2
      drawn := hd ▸ List.Pairwise.nil, drawnReadable := fun cell h => absurd (hd ▸ h) (List.not_mem_nil)
      stage := h3.1, done := fun h => absurd (hdone ▸ h) (by decide)
      cause := by rw [hc]; decide
      faulted := ⟨fun h => absurd h h3.2, fun h => absurd hc h⟩
      faultAddr := fun _ => hf, init := h4
      counts := fun h => h.elim (fun h => (h5.2 h).1) fun h => absurd (hdone ▸ h) (by decide)
      reads := fun h => h.elim (fun h => by rw [(h5.2 h).2, h5.1]; exact .nil _) fun h => absurd (hdone ▸ h) (by decide)
      readable := fun _ h => absurd (h5.1 ▸ h) List.not_mem_nil
      stageCounts := h6, complete := fun h => absurd (hdone ▸ h) (by decide)
      readFault := fun h => absurd (hc ▸ h) (by decide), rangeFault := fun h => absurd (hc ▸ h) (by decide) }

theorem ready5_inv : Inv ready5 :=
  inv_of_running Platform.assumed_wf (by decide) (by decide) (by decide) (by decide) ⟨rfl, fun h => absurd h (by decide)⟩
    ⟨by decide, by decide, by decide, by decide, by decide, by decide, by decide⟩

theorem running5_inv : Inv running5 :=
  inv_of_running Platform.assumed_wf (by decide) (by decide) (by decide) (by decide)
    ⟨rfl, fun _ => ⟨⟨by decide, by decide, by decide⟩, by decide⟩⟩
    ⟨by decide, by decide, by decide, by decide, by decide, by decide, by decide⟩

theorem atTop_inv : Inv atTop :=
  inv_of_running Platform.assumed_wf (by decide) (by decide) (by decide) (by decide) ⟨rfl, fun h => absurd h (by decide)⟩
    ⟨by decide, by decide, by decide, by decide, by decide, by decide, by decide⟩

/-- ready5 with its last byte not readable. -/
def short5 : State := { ready5 with mem := counting 0x2000 4 }

theorem short5_inv : Inv short5 :=
  inv_of_running Platform.assumed_wf (by decide) (by decide) (by decide) (by decide) ⟨rfl, fun h => absurd h (by decide)⟩
    ⟨by decide, by decide, by decide, by decide, by decide, by decide, by decide⟩

theorem afterP4Fault_inv : Inv afterP4Fault where
  platform := Platform.assumed_wf
  memory := by decide
  memoryBelow := by decide
  drawn := by decide
  drawnReadable := by decide
  stage := by decide
  done := by decide
  cause := by decide
  faulted := by decide
  faultAddr := by decide
  init := by decide
  counts h := absurd h (by decide)
  reads h := absurd h (by decide)
  readable := by decide
  stageCounts := ⟨by decide, by decide, by decide, by decide, by decide, by decide, by decide⟩
  complete := by decide
  readFault _ := ⟨⟨by decide, by decide, by decide⟩, by decide, by decide,
    [], List.range' 0x2000 5, by decide, .nil _, ⟨by decide, by decide, by decide⟩⟩
  rangeFault := by decide

theorem atInit_of {s : State} (h : s.platform = Platform.assumed)
    (h2 : s.stage = stageInit ∧ s.ptr.toNat < 2 ^ 64 ∧ s.reads = []) : AtInit s :=
  ⟨h ▸ Platform.assumed_wf, h2.1, h2.2.1, h2.2.2⟩

theorem ready5_atInit : AtInit ready5 := atInit_of rfl (by decide)
theorem ready5_reads : InputReads ready5 ready5.ptr.toNat ready5.lenL.toNat countingByte := by
  unfold InputReads; decide
theorem atTop_atInit : AtInit atTop := atInit_of rfl (by decide)
theorem atTop_reads : InputReads atTop atTop.ptr.toNat atTop.lenL.toNat countingByte := by
  unfold InputReads; decide

/-- ready5 with a host that writes LEN and tries START between the stages. -/
def busyHost5 : State :=
  { ready5 with
    program := [wr 0 .len 9, wr 0 .ctrl 1, .wait]
    schedule := [.sequencer, .host, .host, .sequencer, .host, .sequencer] }

theorem busyHost5_atInit : AtInit busyHost5 := atInit_of rfl (by decide)
theorem busyHost5_turns : SequencerAndHostOnly busyHost5 := by unfold SequencerAndHostOnly; decide
theorem busyHost5_legal : LegalProgram busyHost5 := by
  intro a h
  have : a = ⟨.write, 0x18, 64, 9⟩ ∨ a = ⟨.write, 0, 64, 1⟩ := by
    simpa [busyHost5, wr, HostReg.offset] using h
  rcases this with rfl | rfl <;> decide
theorem busyHost5_reads : InputReads busyHost5 busyHost5.ptr.toNat busyHost5.lenL.toNat countingByte := ready5_reads
theorem busyHost5_inv : Inv busyHost5 :=
  inv_of_running Platform.assumed_wf (by decide) (by decide) (by decide) (by decide) ⟨rfl, fun h => absurd h (by decide)⟩
    ⟨by decide, by decide, by decide, by decide, by decide, by decide, by decide⟩

/-- An empty input, and one that meets BLOCK. -/
theorem other_operations_at_init :
    AtInit (accepted [] 0 0) ∧ InputReads (accepted [] 0 0) 0 0 countingByte ∧
      AtInit (accepted (counting 0x1000 33) 0x1000 33) ∧
        InputReads (accepted (counting 0x1000 33) 0x1000 33) 0x1000 33 countingByte := by
  refine ⟨atInit_of rfl (by decide), ?_, atInit_of rfl (by decide), ?_⟩ <;> unfold InputReads <;> decide

theorem witness_DecodeOfEncodeIsTheInstruction :
    ∃ a, encodeAccess 0x100 (.wrLen 5) = some a ∧ a = ⟨.write, 0x118, 64, 5⟩ := ⟨_, rfl, by decide⟩

theorem witness_LegalEncodingsAreExactlyTheDecoded :
    (Encoded.stage 0xF).wf = true ∧ (Encoded.stage 0x9).wf = false ∧
      decode (.bus (packBus 0b0101000#7 5)) = .ok .rdDigest := ⟨by decide, by decide, rfl⟩

/-- One access for each way to be illegal, and the legal ones at both ends of the window. -/
theorem witness_IllegalAccessesAreRefused :
    (∀ a ∈ [(0x4018, 32), (0x3FF8, 64), (0x4040, 64), (0x4004, 64), (0x4000, 64), (0x4038, 64)],
      let s := withAccess .write a.1 a.2 1
      stageCodeReserved s.stage = false ∧ s.program = [.access ⟨.write, a.1, a.2, 1⟩] ∧ s.schedule = [.host] ∧
        s.platform.regBase = 0x4000) ∧
      answers (step (withAccess .write 0x4000 64 1)) (fun t => t.stage == stageInit) = true ∧
      answers (step (withAccess .write 0x4004 64 1)) (fun _ => true) = false := by decide

theorem witness_ReservedStagesAreRefusedAndUnreachable :
    (∃ t, stageCodeReserved ready5.stage = false ∧ step ready5 = .next t) ∧
      ∀ code ∈ [(9 : BitVec 4), 14], ∀ turn ∈ [Turn.sequencer, .host, .memWrite 0 0],
        let s := { State.reset with stage := code, schedule := [turn] }
        9 ≤ s.stage.toNat ∧ s.stage.toNat ≤ 14 ∧ (nextTurn s).1 ≠ .reset := ⟨⟨_, by decide, rfl⟩, by decide⟩

theorem witness_SequencerStepRunsTheStage :
    decodeStage running5.stage = .ok .tail1 ∧ running5.schedule = [] ∧ busy running5 = true ∧
      decodeStage State.reset.stage = .ok .idle ∧ State.reset.schedule = [] ∧ State.reset.program = [] ∧
      { running5 with schedule := [.sequencer] }.schedule = [.sequencer] :=
  ⟨rfl, by decide, by decide, rfl, by decide, by decide, by decide⟩

theorem witness_HostStepRunsTheAccess :
    let s := withAccess .write 0x4018 64 33
    stageCodeReserved s.stage = false ∧ s.program = [.access ⟨.write, 0x4018, 64, 33⟩] ∧
      decodeAccess s.platform.regBase ⟨.write, 0x4018, 64, 33⟩ = .ok (.wrLen 33) ∧ s.schedule = [.host] ∧
      { s with schedule := [] }.schedule = [] ∧ busy { s with schedule := [] } = false :=
  ⟨by decide, by decide, rfl, by decide, by decide, by decide⟩

/-- A poll that ends the line, and one that does not. -/
theorem witness_WaitLinePollsStatus :
    ∀ s ∈ [withLine { State.reset with done := true } .wait, withLine afterP4Fault .wait, withLine running5 .wait],
      stageCodeReserved s.stage = false ∧ s.program = [.wait] ∧ s.schedule = [.host] := by decide

theorem witness_SequencerTurnAlwaysMoves :
    Inv running5 ∧ ∀ addr, running5.platform.hasSideEffects addr = false := ⟨running5_inv, fun _ => rfl⟩

theorem witness_ResetSetsEveryRegister : { running5 with schedule := [.reset] }.schedule = .reset :: [] := by decide

theorem witness_ResetKeepsWhatIsOutside : { afterP4Fault with schedule := [.reset] }.schedule = .reset :: [] := by decide

theorem witness_InvariantHoldsAfterReset :
    Platform.assumed.wf ∧ Memory.wf (counting 0x2000 5) ∧
      ∀ cell ∈ counting 0x2000 5, cell.1 < 2 ^ Platform.assumed.addrW :=
  ⟨Platform.assumed_wf, by decide, by decide⟩

theorem witness_EveryStepKeepsTheInvariant : ∃ t, Inv running5 ∧ step running5 = .next t := ⟨_, running5_inv, rfl⟩

/-- An empty input, one that ends exactly at 2^64, and one that ends one byte above it. -/
theorem witness_InitChecksTheRangeAndSetsTheLanes :
    (accepted [] 5 0).lenL.toNat = 0 ∧ atTop.ptr.toNat + atTop.lenL.toNat = 2 ^ atTop.platform.addrW ∧
      0 < (accepted [] 0xFFFFFFFFFFFFFFF0 17).lenL.toNat ∧
      2 ^ Platform.assumed.addrW < (accepted [] 0xFFFFFFFFFFFFFFF0 17).ptr.toNat +
        (accepted [] 0xFFFFFFFFFFFFFFF0 17).lenL.toNat := by decide

theorem afterInit33_reads : InputReads afterInit33 afterInit33.ptr.toNat 32 countingByte := by unfold InputReads; decide

/-- On a platform without side effects `LowestRefused` asks for the refusal and the lower bytes only. -/
theorem lowestRefused_of {s : State} {p k j : Nat} (hs : s.platform.sideEffects = []) (hj : j < k)
    (hr : memRead s (p + j) = .refused (p + j)) (hl : ∀ i < j, memRead s (p + i) = .ok (countingByte i)) :
    LowestRefused s p k j :=
  ⟨hj, fun i _ addr h => absurd (memRead_eq_unsaid.mp h).2.2.2 (by simp [Platform.hasSideEffects, hs]), hr,
    fun i h => ⟨_, hl i h⟩⟩

/-- All readable; the last byte of the block refused; the first refused. -/
theorem witness_BlockMixesThirtyTwoBytes :
    InputReads afterInit33 afterInit33.ptr.toNat 32 countingByte ∧
      LowestRefused { afterInit33 with mem := counting 0x1000 31 } 0x1000 32 31 ∧
      LowestRefused { afterInit33 with mem := [] } 0x1000 32 0 :=
  ⟨afterInit33_reads, lowestRefused_of rfl (by decide) (by decide) (by decide),
    lowestRefused_of rfl (by decide) (by decide) (by decide)⟩

theorem witness_FullTailStagesAbsorbEightBytes :
    InputReads atTop atTop.ptr.toNat 8 countingByte ∧
      LowestRefused { afterInit33 with mem := counting 0x1000 7 } 0x1000 8 7 ∧
      LowestRefused { afterInit33 with mem := [] } 0x1000 8 0 := by
  refine ⟨?_, lowestRefused_of rfl (by decide) (by decide) (by decide),
    lowestRefused_of rfl (by decide) (by decide) (by decide)⟩
  unfold InputReads; decide

/-- One byte left, eight bytes left, and the fault of P4. -/
theorem witness_LastTailStageAbsorbsTheRest :
    (let s := { atTop with stage := stageTail1, n := 1 };
      1 ≤ s.n.toNat ∧ s.n.toNat ≤ 8 ∧ InputReads s s.ptr.toNat s.n.toNat countingByte) ∧
    (let s := { atTop with stage := stageTail1, n := 8 };
      1 ≤ s.n.toNat ∧ s.n.toNat ≤ 8 ∧ InputReads s s.ptr.toNat s.n.toNat countingByte) ∧
    (let s := { running5 with mem := counting 0x2000 4 };
      1 ≤ s.n.toNat ∧ s.n.toNat ≤ 8 ∧ LowestRefused s s.ptr.toNat s.n.toNat 4) := by
  refine ⟨⟨by decide, by decide, ?_⟩, ⟨by decide, by decide, ?_⟩, by decide, by decide,
    lowestRefused_of rfl (by decide) (by decide) (by decide)⟩ <;> unfold InputReads <;> decide

theorem witness_TailCountOutsideDomainIsRefused :
    { running5 with n := 0 }.n.toNat = 0 ∧ 8 < { running5 with n := 9 }.n.toNat := by decide

/-- The first and the last byte of a stage's reads side-effecting, for each width. -/
theorem witness_SideEffectReadsStopTheModel :
    (∀ j ∈ [0, 31], memRead (withSideEffect afterInit33 (0x1000 + j)) (0x1000 + j) = .unsaid (0x1000 + j)) ∧
      (∀ j ∈ [0, 7], memRead (withSideEffect (tailOf32 stageTail25 32 0 0) (0x1000 + j)) (0x1000 + j) =
        .unsaid (0x1000 + j)) ∧
      1 ≤ running5.n.toNat ∧ running5.n.toNat ≤ 8 ∧
      memRead (withSideEffect running5 0x2004) 0x2004 = .unsaid 0x2004 := by decide

/-- A ReadFault and a RangeFault. -/
theorem witness_FaultsArePrecise :
    (∃ t, beforeP4Fault.stage ≠ stageFaulted ∧ exec .tail1 beforeP4Fault = .next t ∧ t.stage = stageFaulted) ∧
      ∃ t, exec .init (accepted [] 0xFFFFFFFFFFFFFFF0 17) = .next t ∧ t.stage = stageFaulted :=
  ⟨⟨_, by decide, rfl, by decide⟩, ⟨_, rfl, by decide⟩⟩

theorem witness_StartLatchesTheArguments :
    (1 : Word).getLsbD 0 = true ∧ State.reset.stage = 0x0 ∧ (2 : Word).getLsbD 0 = false ∧ running5.stage ≠ 0x0 := by
  decide

theorem witness_StatusHasItsFields : Inv running5 ∧ Inv afterP4Fault := ⟨running5_inv, afterP4Fault_inv⟩

/-- No byte, one byte and eight bytes at an unaligned address. -/
theorem witness_LoadIsLittleEndian :
    ∀ k ∈ [0, 1, 8], k ≤ 8 ∧ ∀ i < k, memRead atTop (0xFFFFFFFFFFFFFFF0 + i) = .ok (countingByte i) := by decide

theorem witness_LoadReadsOnlyItsBytes :
    ∀ i < 5, memRead ready5 (0x2000 + i) = memRead { ready5 with mem := counting 0x2000 6 } (0x2000 + i) := by decide

theorem witness_LoadFaultsAtTheLowestRefusedByte :
    LowestRefused beforeP4Fault 0x2004 1 0 ∧ LowestRefused { running5 with mem := counting 0x2000 4 } 0x2000 8 4 :=
  ⟨lowestRefused_of rfl (by decide) (by decide) (by decide), lowestRefused_of rfl (by decide) (by decide) (by decide)⟩

theorem witness_RotrRotatesRight : ∀ s ∈ [0, 1, 63], s ≤ 63 := by decide

theorem witness_MuxFoldsTheExactProduct : 1 ≤ (1 : Word).toNat := by decide

theorem witness_DispatchFollowsTheRanges :
    [(0, 0), (1, 8), (9, 16), (17, 24), (25, 2 ^ 64 - 1)].all (fun r =>
      r.1 ≤ r.2 && (BitVec.ofNat 64 r.1).toNat == r.1 && (BitVec.ofNat 64 r.2).toNat == r.2) = true := by decide

theorem witness_NoInstructionStores :
    (∃ t, exec .tail1 running5 = .next t) ∧ ∃ t, exec (.start 1) State.reset = .next t := ⟨⟨_, rfl⟩, _, rfl⟩

/-- A step that changes a byte: a store from outside. -/
theorem witness_ParametersAndReadableSetNeverChange :
    ∃ t, step { State.reset with mem := counting 0x10 2, schedule := [.memWrite 0x10 7] } = .next t ∧
      t.mem.read 0x10 ≠ (counting 0x10 2).read 0x10 := ⟨_, rfl, by decide⟩

theorem witness_LanesAreWrittenByTheirStages :
    ∃ t, exec .final running5 = .next t ∧ Instr.final ∉ [Instr.init, .block, .fold, .tail17, .tail1] ∧
      Instr.final ∉ [Instr.init, .block, .fold, .tail25, .tail9] := ⟨_, rfl, by decide, by decide⟩

/-- FINAL changes DIGEST, a ReadFault changes CAUSE and FAULT_ADDR. -/
theorem witness_ResultRegistersChangeOnlyAtTheirEvents :
    (∃ t, step (tailOf32 stageFinal 0 0 1) = .next t ∧ (nextTurn (tailOf32 stageFinal 0 0 1)).1 ≠ .reset ∧
        t.digest ≠ (tailOf32 stageFinal 0 0 1).digest) ∧
      ∃ t, step beforeP4Fault = .next t ∧ (nextTurn beforeP4Fault).1 ≠ .reset ∧ t.cause ≠ beforeP4Fault.cause ∧
        t.faultAddr ≠ beforeP4Fault.faultAddr :=
  ⟨⟨_, rfl, by decide, by decide⟩, _, rfl, by decide, by decide, by decide⟩

/-- FAULTED with a START to come, and with a reset to come. -/
theorem witness_FaultedIsSticky :
    (let s := withLine afterP4Fault (wr 0 .ctrl 1);
      s.stage = stageFaulted ∧ (nextTurn s).1 ≠ .reset ∧ ∃ t, step s = .next t) ∧
    (let s := { afterP4Fault with schedule := [.reset] };
      s.stage = stageFaulted ∧ (nextTurn s).1 = .reset ∧ ∃ t, step s = .next t) ∧
    Inv afterP4Fault :=
  ⟨⟨by decide, by decide, _, rfl⟩, ⟨by decide, by decide, _, rfl⟩, afterP4Fault_inv⟩

/-- START leaves IDLE; the sequencer moves a running stage. -/
theorem witness_StageMovesOnlyByItsAgents :
    (∃ t, step (withLine State.reset (wr 0 .ctrl 1)) = .next t ∧ t.stage ≠ stageIdle ∧
        (withLine State.reset (wr 0 .ctrl 1)).stage = stageIdle) ∧
      ∃ t, step running5 = .next t ∧ t.stage ≠ running5.stage ∧ running5.stage ≠ stageIdle :=
  ⟨⟨_, rfl, by decide, by decide⟩, _, rfl, by decide, by decide⟩

/-- The host changes LEN while INIT runs, tries START while TAIL1 runs, and reads DIGEST while FINAL runs. -/
theorem witness_HostAccessesCommuteWithStages :
    (∃ t u, busy ready5 = true ∧ ready5.stage ≠ stageFinal ∧ decodeStage ready5.stage = .ok .init ∧
        decodeAccess ready5.platform.regBase ⟨.write, 0x18, 64, 1⟩ = .ok (.wrLen 1) ∧
          exec (.wrLen 1) ready5 = .next t ∧ exec .init ready5 = .next u) ∧
      (∃ t u, busy running5 = true ∧ running5.stage ≠ stageFinal ∧ decodeStage running5.stage = .ok .tail1 ∧
        decodeAccess running5.platform.regBase ⟨.write, 0x0, 64, 1⟩ = .ok (.start 1) ∧
          exec (.start 1) running5 = .next t ∧ exec .tail1 running5 = .next u) ∧
      ∃ t u, busy (tailOf32 stageFinal 0 0 1) = true ∧ decodeStage (tailOf32 stageFinal 0 0 1).stage = .ok .final ∧
        (∀ v, Instr.rdDigest = .start v → v.getLsbD 0 = false) ∧
        decodeAccess (tailOf32 stageFinal 0 0 1).platform.regBase ⟨.read, 0x28, 64, 0⟩ = .ok .rdDigest ∧
          exec .rdDigest (tailOf32 stageFinal 0 0 1) = .next t ∧ exec .final (tailOf32 stageFinal 0 0 1) = .next u :=
  ⟨⟨_, _, by decide, by decide, rfl, rfl, rfl, rfl⟩, ⟨_, _, by decide, by decide, rfl, rfl, rfl, rfl⟩,
    _, _, by decide, rfl, (fun _ h => nomatch h), rfl, rfl, rfl⟩

theorem witness_StoreDuringAnOperationMakesADraw :
    let s := { running5 with schedule := [.memWrite 0x2000 7] }
    busy s = true ∧ s.schedule = [.memWrite 0x2000 7] ∧ s.mem.read 0x2000 = some 0 ∧ (0 : Byte) ≠ 7 ∧
      0x2000 < 2 ^ s.platform.addrW ∧ s.platform.hasSideEffects 0x2000 = false := by decide

theorem witness_StoresBeforeStartAreVisible :
    let s := { State.reset with mem := counting 0x2000 5 }
    s.stage = stageIdle ∧ (1 : Word).getLsbD 0 = true ∧ s.mem.read 0x2000 = some 0 ∧
      0x2000 < 2 ^ s.platform.addrW ∧ s.platform.hasSideEffects 0x2000 = false := by decide

/-- A store made in FINAL, the end of that operation, and a START to come. -/
theorem witness_StoresAreVisibleToTheNextOperation :
    let s := { tailOf32 stageFinal 0 0 1 with schedule := [.memWrite 0x1000 7, .sequencer] }
    ∃ u, Host.Core.run core 2 s = .next u ∧ u.stage = stageIdle ∧ s.mem.read 0x1000 = some 0 ∧
      0x1000 < 2 ^ s.platform.addrW ∧ s.platform.hasSideEffects 0x1000 = false ∧
      (∀ b, Turn.memWrite 0x1000 b ∉ [Turn.sequencer]) ∧ Turn.reset ∉ [Turn.sequencer] :=
  ⟨_, rfl, by decide, by decide, by decide, by decide, by simp, by decide⟩

/-- With no schedule and no host lines, with an input that ends at 2^64, and with a host that interferes. -/
theorem witness_OperationsEndWithTheHash :
    (AtInit ready5 ∧ SequencerAndHostOnly ready5 ∧ LegalProgram ready5 ∧
        InputReads ready5 ready5.ptr.toNat ready5.lenL.toNat countingByte) ∧
      (AtInit atTop ∧ InputReads atTop atTop.ptr.toNat atTop.lenL.toNat countingByte) ∧
      AtInit busyHost5 ∧ SequencerAndHostOnly busyHost5 ∧ LegalProgram busyHost5 ∧
        InputReads busyHost5 busyHost5.ptr.toNat busyHost5.lenL.toNat countingByte :=
  ⟨⟨ready5_atInit, fun _ h => absurd h List.not_mem_nil, fun _ h => absurd h List.not_mem_nil, ready5_reads⟩,
    ⟨atTop_atInit, atTop_reads⟩, busyHost5_atInit, busyHost5_turns, busyHost5_legal, busyHost5_reads⟩

theorem witness_OperationsPerformTheirStages :
    AtInit busyHost5 ∧ SequencerAndHostOnly busyHost5 ∧ LegalProgram busyHost5 ∧
      InputReads busyHost5 busyHost5.ptr.toNat busyHost5.lenL.toNat countingByte ∧
      sequencerSteps 6 busyHost5 = operationSteps busyHost5.lenL.toNat :=
  ⟨busyHost5_atInit, busyHost5_turns, busyHost5_legal, busyHost5_reads, by decide⟩

/-- Completed after its own three sequencer steps among six turns; faulted where a byte is missing; an empty input. -/
theorem witness_OperationsReadTheirInputOnce :
    (∃ t, AtInit busyHost5 ∧ Inv busyHost5 ∧ .reset ∉ busyHost5.schedule ∧ Host.Core.run core 6 busyHost5 = .next t ∧
        sequencerSteps 6 busyHost5 ≤ operationSteps busyHost5.lenL.toNat ∧ t.done = true) ∧
      (∃ t, AtInit short5 ∧ Inv short5 ∧ .reset ∉ short5.schedule ∧ short5.program = [] ∧
        Host.Core.run core 2 short5 = .next t ∧ t.stage = stageFaulted) ∧
      AtInit (accepted [] 0 0) ∧ (accepted [] 0 0).lenL.toNat = 0 :=
  ⟨⟨_, busyHost5_atInit, busyHost5_inv, by decide, rfl, by decide, by decide⟩,
    ⟨_, atInit_of rfl (by decide), short5_inv, by decide, by decide, rfl, by decide⟩,
    other_operations_at_init.1, by decide⟩

theorem witness_OperationsKeepTheInputEnd :
    ∃ t, AtInit atTop ∧ Inv atTop ∧ .reset ∉ atTop.schedule ∧ Host.Core.run core 3 atTop = .next t ∧ atTop.program = [] ∧
      t.stage ≠ stageInit ∧ t.cause ≠ FaultCause.rangeFault.code :=
  ⟨_, atTop_atInit, atTop_inv, by decide, rfl, by decide, by decide, by decide⟩

theorem witness_OperationsEndOrFault :
    AtInit busyHost5 ∧ Inv busyHost5 ∧ .reset ∉ busyHost5.schedule ∧ LegalProgram busyHost5 ∧
      (∀ addr, busyHost5.platform.hasSideEffects addr = false) ∧ AtInit short5 ∧ Inv short5 :=
  ⟨busyHost5_atInit, busyHost5_inv, by decide, busyHost5_legal, fun _ => rfl, atInit_of rfl (by decide), short5_inv⟩

theorem witness_EmptyInputWithSeedZeroHashesToZero :
    let s := { accepted [] 0 0 with schedule := [.host, .sequencer, .memWrite 0 1] }
    AtInit s ∧ .reset ∉ s.schedule ∧ LegalProgram s ∧ s.lenL = 0 ∧ s.seedL = 0 :=
  ⟨atInit_of rfl (by decide), by decide, fun _ h => absurd h List.not_mem_nil, by decide, by decide⟩

/-- The poll of the WAIT line comes early, so that the line stays. -/
theorem witness_HashLinesReturnTheHash :
    let s :=
      { State.reset with
        mem := counting 0x2000 5
        program := hashLines 0 0x2000 5 0
        schedule := [.sequencer, .host, .host, .host, .host, .sequencer, .host] }
    s.stage = stageIdle ∧ SequencerAndHostOnly s ∧ s.program = hashLines s.platform.regBase 0x2000 5 0 ∧
      ∀ i < (5 : Word).toNat, s.mem.read ((0x2000 : Word).toNat + i) = some (countingByte i) ∧
        s.platform.hasSideEffects ((0x2000 : Word).toNat + i) = false ∧
        (0x2000 : Word).toNat + i < 2 ^ s.platform.addrW :=
  ⟨by decide, by unfold SequencerAndHostOnly; decide, by decide, by decide⟩

end Sys2Proof.Machine.Tests
end

section
/-! PROOFS. What an instruction leaves alone outside the block, and that no step changes a parameter or the readable set. -/

namespace Sys2Proof.Machine

/-! ### What no instruction touches -/

/-- `t` has the platform, the data space, the host's remaining lines and the schedule of `s`. -/
structure SameOutside (s t : State) : Prop where
  platform : t.platform = s.platform
  mem : t.mem = s.mem
  program : t.program = s.program
  schedule : t.schedule = s.schedule

/-- A reading stage touches nothing outside the block where its own writes do not: a ReadFault never does. -/
theorem readingStage_sameOutside {α : Type} {s t : State} {p k : Nat} {r : ReadResult α} {writes : α → State}
    (h : readingStage s p k r writes = .next t) (hw : ∀ v, SameOutside s (writes v)) : SameOutside s t := by
  rcases readingStage_next h with ⟨v, -, rfl⟩ | ⟨addr, -, rfl⟩
  · obtain ⟨hp, hm, hl, hs⟩ := hw v
    exact ⟨hp, hm, hl, hs⟩
  · exact ⟨rfl, rfl, rfl, rfl⟩

/-- No instruction touches anything outside the block. -/
theorem exec_sameOutside {i : Instr} {s t : State} (h : exec i s = .next t) : SameOutside s t := by
  cases i with
  | init =>
    simp only [exec, execInit] at h
    split_ifs at h <;> cases h <;> exact ⟨rfl, rfl, rfl, rfl⟩
  | start data =>
    simp only [exec, execStart] at h
    split_ifs at h <;> cases h <;> exact ⟨rfl, rfl, rfl, rfl⟩
  | block | tail25 | tail17 | tail9 => exact readingStage_sameOutside h fun _ => ⟨rfl, rfl, rfl, rfl⟩
  | tail1 =>
    simp only [exec, execTail1] at h
    split at h
    · cases h
    · exact readingStage_sameOutside h fun _ => ⟨rfl, rfl, rfl, rfl⟩
  | idle | fold | final | faulted | wrDataAddr | wrLen | wrSeed | wrStatusIgnored | wrDigestIgnored | wrCauseIgnored
  | wrFaultAddrIgnored | rdCtrl | rdStatus | rdDataAddr | rdLen | rdSeed | rdDigest | rdCause | rdFaultAddr =>
    cases h
    exact ⟨rfl, rfl, rfl, rfl⟩

/-- The sequencer touches nothing outside the block. -/
theorem sequencerTurn_sameOutside {s t : State} (h : sequencerTurn s = .next t) : SameOutside s t := by
  obtain ⟨i, -, hi⟩ := sequencerTurn_next h
  exact exec_sameOutside hi

/-- The host's turn changes neither the platform, the data space nor the schedule. -/
theorem hostTurn_outside {s t : State} (h : hostTurn s = .next t) :
    t.platform = s.platform ∧ t.mem = s.mem ∧ t.schedule = s.schedule := by
  rcases hostTurn_next h with ⟨-, rfl⟩ | ⟨rest, -, rfl⟩ | ⟨a, rest, i, -, -, hi⟩
  · exact ⟨rfl, rfl, rfl⟩
  · split_ifs <;> exact ⟨rfl, rfl, rfl⟩
  · obtain ⟨hp, hm, -, hs⟩ := exec_sameOutside hi
    exact ⟨hp, hm, hs⟩

/-! ### Stores from outside -/

/-- A store changes no byte but the one at its own address. -/
theorem storeByte_read_other (s : State) {addr x : Nat} (byte : Byte) (hx : x ≠ addr) :
    (storeByte s addr byte).mem.read x = s.mem.read x := by
  rcases storeByte_cases s addr byte with ⟨h, -⟩ | ⟨-, -, ⟨-, h⟩ | ⟨-, h⟩⟩ <;> rw [h]
  · exact Memory.read_write_other s.mem byte hx
  · exact Memory.read_write_other s.mem byte hx

/-- A store makes no address readable and none unreadable. -/
theorem storeByte_read_eq_none (s : State) (addr : Nat) (byte : Byte) (x : Nat) :
    (storeByte s addr byte).mem.read x = none ↔ s.mem.read x = none := by
  by_cases hx : x = addr
  · subst hx
    rcases storeByte_cases s x byte with ⟨h, -⟩ | ⟨hr, -, ⟨-, h⟩ | ⟨-, h⟩⟩ <;> rw [h]
    · simp [hr]
    · simp [hr]
  · rw [storeByte_read_other s byte hx]

/-! ### Steps -/

/-- The state a turn finds differs from the one before in the schedule only, whose first turn is gone. -/
theorem nextTurn_snd (s : State) : (nextTurn s).2 = { s with schedule := s.schedule.tail } := by
  rcases nextTurn_cases s with ⟨hs, h⟩ | ⟨turn, rest, hs, h⟩ <;> rw [h]
  · rw [hs, List.tail_nil, ← hs]
  · simp [hs]

/-- Every turn leaves the platform and the schedule, and every one but a store leaves the data space. -/
theorem takeTurn_outside {turn : Turn} {s t : State} (h : takeTurn turn s = .next t) :
    t.platform = s.platform ∧ t.schedule = s.schedule ∧
      (t.mem = s.mem ∨ ∃ addr byte, turn = .memWrite addr byte ∧ t.mem = (storeByte s addr byte).mem) := by
  rcases takeTurn_next h with ⟨-, rfl⟩ | ⟨-, ⟨-, hs⟩ | ⟨-, hh⟩ | ⟨addr, byte, hturn, rfl⟩⟩
  · exact ⟨rfl, rfl, .inl rfl⟩
  · obtain ⟨hp, hm, -, hsched⟩ := sequencerTurn_sameOutside hs
    exact ⟨hp, hsched, .inl hm⟩
  · obtain ⟨hp, hm, hsched⟩ := hostTurn_outside hh
    exact ⟨hp, hsched, .inl hm⟩
  · exact ⟨storeByte_platform s addr byte, storeByte_schedule s addr byte, .inr ⟨addr, byte, hturn, rfl⟩⟩

/-- Settles O38: the only turn that touches M is the store from outside, which writes one readable address. -/
theorem parametersAndReadableSetNeverChange : Obligations.ParametersAndReadableSetNeverChange := by
  intro s t h
  obtain ⟨hp, -, hm⟩ := takeTurn_outside h
  rw [nextTurn_snd] at hp hm
  rcases hm with hm | ⟨a, byte, hturn, hm⟩
  · rw [hm]
    exact ⟨hp, fun _ => Iff.rfl, fun _ hne => absurd rfl hne⟩
  · rw [hm]
    refine ⟨hp, storeByte_read_eq_none _ a byte, fun addr hne => ?_⟩
    by_cases ha : addr = a
    · exact ⟨byte, ha ▸ hturn⟩
    · exact absurd (storeByte_read_other _ byte ha) hne

end Sys2Proof.Machine
end

section
/-! PROOFS. Runs of a busy block: what a turn of the host does to a running operation, and that an operation which
progresses at each sequencer step ends (42_host_and_init.md R125, 70_reset_and_hazards.md R188). -/

namespace Sys2Proof.Machine

/-! ### Busy states -/

theorem busy_iff {s : State} : busy s = true ↔ 1 ≤ s.stage.toNat ∧ s.stage.toNat ≤ 8 := by
  simp [busy]

theorem stage_ne_idle_of_busy {s : State} (h : busy s = true) : s.stage ≠ stageIdle := by
  intro hs
  simp [busy_iff, hs, stageIdle] at h

/-- A turn of a busy block is not refused for its stage code. -/
theorem unlessReserved_of_busy {s : State} (h : busy s = true) (o : Host.Outcome State Fault Refusal) :
    unlessReserved s o = o := by
  have hr : stageCodeReserved s.stage = false := by
    obtain ⟨-, hle⟩ := busy_iff.mp h
    simp only [stageCodeReserved, Bool.and_eq_false_iff, decide_eq_false_iff_not]
    omega
  simp [unlessReserved, hr]

/-- In a busy block any turn but the sequencer's comes from the schedule. -/
theorem schedule_eq_cons_of_busy {s : State} (h : busy s = true) (ht : (nextTurn s).1 ≠ .sequencer) :
    s.schedule = (nextTurn s).1 :: s.schedule.tail := by
  rcases nextTurn_cases s with ⟨-, hn⟩ | ⟨turn, rest, hs, hn⟩
  · exact absurd (by rw [hn]; simp [defaultTurn, h]) ht
  · simp [hn, hs]

/-! ### The host beside a running operation -/

/-- The instructions that are host accesses (30_encoding.md R74). -/
def isHostAccess : Instr → Bool
  | .idle | .init | .block | .fold | .tail25 | .tail17 | .tail9 | .tail1 | .final | .faulted => false
  | _ => true

/-- The bus names host accesses only. -/
theorem isHostAccess_of_decodeAccess {base : Nat} {a : BusAccess} {i : Instr} (h : decodeAccess base a = .ok i) :
    isHostAccess i = true := by
  unfold decodeAccess at h
  split_ifs at h
  unfold decodeBus at h
  split at h <;> cases h <;> rfl

/-- A bus word with an offset that is a multiple of 8 has an instruction (30_encoding.md R75). -/
theorem decodeBus_packBus {key : BitVec 7} (data : Word) (h : key.toNat % 8 = 0) :
    ∃ i, decodeBus (packBus key data) = .ok i := by
  obtain ⟨q, hq⟩ : ∃ q, key.toNat = 8 * q := ⟨key.toNat / 8, by omega⟩
  have hlt : q < 16 := by have := key.isLt; omega
  simp only [decodeBus, busKey_packBus, busData_packBus, hq]
  interval_cases q <;> exact ⟨_, rfl⟩

/-- The key of an access: direction in bit 6, offset below it (30_encoding.md R80). -/
theorem toNat_accessKey (dir : Direction) {offset : Nat} (h : offset < 64) :
    (directionBit dir ++ BitVec.ofNat 6 offset).toNat = (directionBit dir).toNat * 64 + offset := by
  have hmod : offset % 2 ^ 6 = offset := Nat.mod_eq_of_lt h
  rw [BitVec.toNat_append, BitVec.toNat_ofNat, hmod, Nat.shiftLeft_eq, Nat.mul_comm,
    ← Nat.two_pow_add_eq_or_of_lt h]

/-- A legal access has an instruction (42_host_and_init.md R124). -/
theorem decodeAccess_of_wf {base : Nat} {a : BusAccess} (h : a.wf base = true) : ∃ i, decodeAccess base a = .ok i := by
  simp only [BusAccess.wf, Bool.and_eq_true, beq_iff_eq, decide_eq_true_eq] at h
  obtain ⟨⟨hwidth, hlo, hhi⟩, halign⟩ := h
  rw [decodeAccess, if_neg (by omega), if_neg (by omega)]
  refine decodeBus_packBus a.data ?_
  rw [toNat_accessKey a.dir (by omega)]
  omega

/-- `s` with other values in the three argument registers, in the host's read data and in its remaining lines. -/
def withHost (s : State) (dataAddr len seed readData : Word) (program : List HostLine) : State :=
  { s with dataAddr := dataAddr, len := len, seed := seed, readData := readData, program := program }

/-- Out of IDLE a host access changes nothing but the argument registers and the read data: START is ignored there
(42_host_and_init.md R120, R123). -/
theorem exec_hostAccess {i : Instr} {s : State} (hi : isHostAccess i = true) (hs : s.stage ≠ stageIdle) :
    ∃ da l sd rd, exec i s = .next (withHost s da l sd rd s.program) := by
  cases i with
  | start data => exact ⟨_, _, _, _, by simp only [exec, execStart, beq_false_of_ne hs, Bool.and_false]; rfl⟩
  | idle | init | block | fold | tail25 | tail17 | tail9 | tail1 | final | faulted => cases hi
  | wrDataAddr | wrLen | wrSeed | wrStatusIgnored | wrDigestIgnored | wrCauseIgnored | wrFaultAddrIgnored | rdCtrl
  | rdStatus | rdDataAddr | rdLen | rdSeed | rdDigest | rdCause | rdFaultAddr => exact ⟨_, _, _, _, rfl⟩

theorem hostTurn_of_nil {s : State} (h : s.program = []) : hostTurn s = .next s := by
  simp only [hostTurn, h]

/-- One poll of a WAIT line (30_encoding.md R78). -/
theorem hostTurn_of_wait {s : State} {rest : List HostLine} (h : s.program = .wait :: rest) :
    hostTurn s =
      .next { returnValue s (status s) with program := if waitOver (status s) then rest else s.program } := by
  have hwait : hostTurn s = waitTurn s rest := by simp only [hostTurn, h]
  rw [hwait]
  change Host.Outcome.next (if waitOver (status s) then { returnValue s (status s) with program := rest }
    else returnValue s (status s)) = _
  split_ifs <;> rfl

theorem hostTurn_of_access {s : State} {a : BusAccess} {rest : List HostLine} {i : Instr}
    (h : s.program = .access a :: rest) (hi : decodeAccess s.platform.regBase a = .ok i) :
    hostTurn s = exec i { s with program := rest } := by
  simp only [hostTurn, h, hi]

/-- The host of a busy block with legal accesses always moves, and leaves the operation alone. -/
theorem hostTurn_of_busy {s : State} (hb : busy s = true) (hl : LegalProgram s) :
    ∃ da l sd rd lines, hostTurn s = .next (withHost s da l sd rd lines) ∧
      LegalProgram (withHost s da l sd rd lines) := by
  match hp : s.program with
  | [] => exact ⟨_, _, _, _, _, hostTurn_of_nil hp, hl⟩
  | .wait :: rest =>
    refine ⟨_, _, _, _, _, hostTurn_of_wait hp, fun a ha => hl a ?_⟩
    change HostLine.access a ∈ ite _ _ _ at ha
    split_ifs at ha
    · exact hp ▸ List.mem_cons_of_mem _ ha
    · exact ha
  | .access a :: rest =>
    obtain ⟨i, hi⟩ := decodeAccess_of_wf (hl a (hp ▸ List.mem_cons_self ..))
    obtain ⟨da, l, sd, rd, he⟩ :=
      exec_hostAccess (s := { s with program := rest }) (isHostAccess_of_decodeAccess hi) (stage_ne_idle_of_busy hb)
    exact ⟨da, l, sd, rd, rest, (hostTurn_of_access hp hi).trans he, fun b hb => hl b (hp ▸ List.mem_cons_of_mem _ hb)⟩

/-! ### Runs -/

theorem run_succ_of_step {s t : State} (k : Nat) (h : step s = .next t) :
    Host.Core.run core (k + 1) s = Host.Core.run core k t := by
  have hc : core.step s = .next t := h
  simp only [Host.Core.run, hc]

theorem sequencerSteps_succ_of_step {s t : State} (k : Nat) (h : step s = .next t) :
    sequencerSteps (k + 1) s = sequencerSteps k t + if (nextTurn s).1 = .sequencer then 1 else 0 := by
  simp [sequencerSteps, turnTrace, h, List.count_cons]

/-- `k` steps lead from `s` to `t`, `q` of them the sequencer's, and the block is busy before each of them. -/
structure RunsBusy (k q : Nat) (s t : State) : Prop where
  run : Host.Core.run core k s = .next t
  turns : sequencerSteps k s = q
  busy : ∀ j < k, ∃ u, Host.Core.run core j s = .next u ∧ busy u = true

theorem RunsBusy.refl (s : State) : RunsBusy 0 0 s s := ⟨rfl, rfl, fun _ h => absurd h (Nat.not_lt_zero _)⟩

theorem RunsBusy.cons {k q : Nat} {s t u : State} (hb : Machine.busy s = true) (h : step s = .next u)
    (hr : RunsBusy k q u t) : RunsBusy (k + 1) (q + if (nextTurn s).1 = .sequencer then 1 else 0) s t where
  run := (run_succ_of_step k h).trans hr.run
  turns := by rw [sequencerSteps_succ_of_step k h, hr.turns]
  busy j hj := by
    cases j with
    | zero => exact ⟨s, rfl, hb⟩
    | succ j =>
      rw [run_succ_of_step j h]
      exact hr.busy j (Nat.lt_of_succ_lt_succ hj)

/-- `P r s` says that an operation runs with `r` sequencer steps to go, and `Q r t` that it has ended with `r` steps not
used: the sequencer makes each step count, and no other turn of the `allowed` kind disturbs `P`. -/
structure Progresses (allowed : Turn → Prop) (P Q : Nat → State → Prop) : Prop where
  busy : ∀ {r s}, P r s → busy s = true
  reschedule : ∀ {r s} ts, P r s → P r { s with schedule := ts }
  sequencer : ∀ {r s}, P r s → ∃ r' t, r = r' + 1 ∧ sequencerTurn s = .next t ∧ (P r' t ∨ Q r' t)
  other : ∀ {r s turn}, P r s → allowed turn → turn ≠ .sequencer → ∃ t, takeTurn turn s = .next t ∧ P r t

/-- An operation that progresses ends: in as many sequencer steps as it had to go, less those not used, and in no more
steps of others than were scheduled. -/
theorem Progresses.exists_runsBusy {allowed : Turn → Prop} {P Q : Nat → State → Prop} (hp : Progresses allowed P Q) :
    ∀ {r : Nat} {s : State}, P r s → (∀ turn ∈ s.schedule, allowed turn) →
      ∃ k q r' t, RunsBusy k q s t ∧ k ≤ s.schedule.length + q ∧ q + r' = r ∧ Q r' t := by
  intro r s h hs
  induction hn : s.schedule.length + r using Nat.strong_induction_on generalizing r s with
  | _ n ih =>
  have hb := hp.busy h
  have htail : ∀ {t : State}, step s = .next t → t.schedule = s.schedule.tail := fun ht => by
    rw [(takeTurn_outside ht).2.1, nextTurn_snd]
  have hallowed : ∀ {t : State}, step s = .next t → ∀ turn ∈ t.schedule, allowed turn := fun ht turn hturn =>
    hs turn (List.mem_of_mem_tail (htail ht ▸ hturn))
  have hlen := List.length_tail (l := s.schedule)
  by_cases hseq : (nextTurn s).1 = .sequencer
  · obtain ⟨r', t, rfl, ht, hend⟩ := hp.sequencer (hp.reschedule s.schedule.tail h)
    have hstep : step s = .next t := by
      rw [step, nextTurn_snd, hseq, takeTurn]
      exact (unlessReserved_of_busy hb _).trans ht
    rcases hend with hP | hQ
    · have ht' := htail hstep
      obtain ⟨k, q, r'', u, hrun, hk, hq, hu⟩ := ih _ (by rw [ht']; omega) hP (hallowed hstep) rfl
      rw [ht'] at hk
      refine ⟨k + 1, q + 1, r'', u, ?_, by omega, by omega, hu⟩
      simpa [hseq] using RunsBusy.cons hb hstep hrun
    · refine ⟨1, 1, r', t, ?_, by omega, by omega, hQ⟩
      simpa [hseq] using RunsBusy.cons hb hstep (.refl t)
  · have hcons := schedule_eq_cons_of_busy hb hseq
    obtain ⟨t, ht, hP⟩ := hp.other (hp.reschedule s.schedule.tail h) (hs _ (hcons ▸ List.mem_cons_self ..)) hseq
    have hstep : step s = .next t := by rw [step, nextTurn_snd, ht]
    have ht' := htail hstep
    have hpos : 0 < s.schedule.length := by rw [hcons]; exact Nat.succ_pos _
    obtain ⟨k, q, r', u, hrun, hk, hq, hu⟩ := ih _ (by rw [ht']; omega) hP (hallowed hstep) rfl
    rw [ht'] at hk
    refine ⟨k + 1, q, r', u, ?_, by omega, hq, hu⟩
    simpa [hseq] using RunsBusy.cons hb hstep hrun

end Sys2Proof.Machine
end

section
/-! PROOFS. How many sequencer steps a running operation has to go (44_tail_absorber.md R145, 45_finalizer.md R153), and
that on ordinary memory it takes them or faults. -/

namespace Sys2Proof.Machine

/-! ### The steps to go -/

/-- The sequencer steps to go of an operation with STAGE, N and LEN_L as given, N being in the range of its stage
(43_block_mixer.md R130, 44_tail_absorber.md R140). -/
inductive StepsLeft (stage : BitVec 4) (n len : Nat) : Nat → Prop
  | init (h : stage = stageInit) : StepsLeft stage n len (operationSteps len)
  | block (h : stage = stageBlock) (lo : 32 ≤ n) : StepsLeft stage n len (n / 32 + 1 + tailSteps (n % 32) + 1)
  | fold (h : stage = stageFold) (hi : n < 32) : StepsLeft stage n len (1 + tailSteps n + 1)
  | tail25 (h : stage = stageTail25) (lo : 25 ≤ n) (hi : n ≤ 32) : StepsLeft stage n len (tailSteps n + 1)
  | tail17 (h : stage = stageTail17) (lo : 17 ≤ n) (hi : n ≤ 24) : StepsLeft stage n len (tailSteps n + 1)
  | tail9 (h : stage = stageTail9) (lo : 9 ≤ n) (hi : n ≤ 16) : StepsLeft stage n len (tailSteps n + 1)
  | tail1 (h : stage = stageTail1) (lo : 1 ≤ n) (hi : n ≤ 8) : StepsLeft stage n len (tailSteps n + 1)
  | final (h : stage = stageFinal) (hn : n = 0) : StepsLeft stage n len 1

/-- An operation runs and has `r` sequencer steps to go. -/
def Running (r : Nat) (s : State) : Prop := StepsLeft s.stage s.n.toNat s.lenL.toNat r

theorem Running.busy {r : Nat} {s : State} (h : Running r s) : busy s = true := by
  have hs : s.stage ∈ [stageInit, stageBlock, stageFold, stageTail25, stageTail17, stageTail9, stageTail1, stageFinal] := by
    cases h with
    | init h | block h | fold h | tail25 h | tail17 h | tail9 h | tail1 h | final h => simp [h]
  have hall : ∀ code ∈ [stageInit, stageBlock, stageFold, stageTail25, stageTail17, stageTail9, stageTail1, stageFinal],
      1 ≤ code.toNat ∧ code.toNat ≤ 8 := by decide
  exact busy_iff.mpr (hall _ hs)

/-- The tail dispatch picks the stage that has T(n) + 1 steps to go (44_tail_absorber.md R140, R145). -/
theorem stepsLeft_dispatch {n : Word} {len : Nat} (h : n.toNat ≤ 32) :
    StepsLeft (dispatch n) n.toNat len (tailSteps n.toNat + 1) := by
  unfold dispatch
  split_ifs with h25 h17 h9 h1
  · exact .tail25 rfl h25 h
  · exact .tail17 rfl h17 (by omega)
  · exact .tail9 rfl h9 (by omega)
  · exact .tail1 rfl h1 (by omega)
  · have h0 : n.toNat = 0 := by omega
    rw [h0]
    exact .final rfl rfl

theorem toNat_sub_of_le_toNat {n k : Word} (h : k.toNat ≤ n.toNat) : (n - k).toNat = n.toNat - k.toNat :=
  BitVec.toNat_sub_of_le (BitVec.le_def.mpr h)

/-- INIT without a fault is the first of the S(len) steps (45_finalizer.md R153). -/
theorem initLanes_running (s : State) : ∃ r, operationSteps s.lenL.toNat = r + 1 ∧ Running r (initLanes s) := by
  unfold Running operationSteps
  simp only [initLanes_stage, initLanes_n, initLanes_lenL]
  by_cases hlen : 32 < s.lenL.toNat
  · rw [if_neg (by omega), if_pos hlen]
    exact ⟨_, by omega, .block rfl hlen.le⟩
  · rw [if_pos (by omega), if_neg hlen]
    exact ⟨_, by omega, stepsLeft_dispatch (by omega)⟩

/-- A BLOCK without a fault is one of the ⌊n/32⌋ to go (43_block_mixer.md R130). -/
theorem mixBlock_running {s : State} (w : BlockWords) (h : 32 ≤ s.n.toNat) :
    ∃ r, s.n.toNat / 32 + 1 + tailSteps (s.n.toNat % 32) + 1 = r + 1 ∧ Running r (mixBlock s w) := by
  have hn : (s.n - 32).toNat = s.n.toNat - 32 := toNat_sub_of_le_toNat (k := 32) h
  unfold Running
  simp only [mixBlock_stage, mixBlock_n, mixBlock_lenL, hn]
  refine ⟨_, rfl, ?_⟩
  split_ifs with hmore
  · have hr : s.n.toNat / 32 + 1 + tailSteps (s.n.toNat % 32) =
        (s.n.toNat - 32) / 32 + 1 + tailSteps ((s.n.toNat - 32) % 32) + 1 := by
      rw [show (s.n.toNat - 32) % 32 = s.n.toNat % 32 by omega]
      omega
    exact hr ▸ .block rfl hmore
  · have hr : s.n.toNat / 32 + 1 + tailSteps (s.n.toNat % 32) = 1 + tailSteps (s.n.toNat - 32) + 1 := by
      rw [show s.n.toNat - 32 = s.n.toNat % 32 by omega]
      omega
    exact hr ▸ .fold rfl (by omega)

/-- A full tail stage without a fault is one of the T(n) to go (44_tail_absorber.md R145). -/
theorem advance8_running {s : State} (lo : 9 ≤ s.n.toNat) (hi : s.n.toNat ≤ 32) :
    ∃ r, tailSteps s.n.toNat + 1 = r + 1 ∧ Running r (advance8 s) := by
  have hn : (s.n - 8).toNat = s.n.toNat - 8 := toNat_sub_of_le_toNat (k := 8) (by simp; omega)
  have hr : tailSteps s.n.toNat = tailSteps (s.n - 8).toNat + 1 := by
    simp only [hn, tailSteps]
    omega
  exact ⟨_, rfl, hr ▸ stepsLeft_dispatch (by omega)⟩

theorem tailSteps_last {n : Nat} (lo : 1 ≤ n) (hi : n ≤ 8) : tailSteps n = 1 := by
  simp only [tailSteps]
  omega

/-! ### What the sequencer's step makes of a running operation -/

/-- After a sequencer step of `s` the operation runs on with `r` steps to go, or is complete with none, or has faulted
(45_finalizer.md R151, 60_exceptions.md R160, R163). -/
inductive AfterStep (s : State) (r : Nat) (t : State) : Prop
  | running (run : Running r t) (done : t.done = s.done) (digest : t.digest = s.digest)
  | completed (none : r = 0) (stage : t.stage = stageIdle) (done : t.done = true)
  | faulted (stage : t.stage = stageFaulted) (done : t.done = s.done) (digest : t.digest = s.digest)
      (cause : t.cause = 1 ∨ t.cause = 2)

/-- The sequencer's turn in a stage that is legal. -/
theorem sequencerTurn_of_stage {s : State} {code : BitVec 4} {i : Instr} (hs : s.stage = code)
    (hi : decodeStage code = .ok i) : sequencerTurn s = exec i s := by
  subst hs
  simp only [sequencerTurn, hi]

/-- A reading stage makes its progress or takes a ReadFault. -/
theorem readingStage_afterStep {α : Type} {s t : State} {p k r : Nat} {x : ReadResult α} {writes : α → State}
    (h : readingStage s p k x writes = .next t)
    (hw : ∀ v, Running r (writes v) ∧ (writes v).done = s.done ∧ (writes v).digest = s.digest) : AfterStep s r t := by
  rcases readingStage_next h with ⟨v, -, rfl⟩ | ⟨addr, -, rfl⟩
  · obtain ⟨hrun, hdone, hdigest⟩ := hw v
    exact .running hrun hdone hdigest
  · exact .faulted rfl rfl rfl (.inl rfl)

/-- Each sequencer step of a running operation uses up one of its steps to go. -/
theorem sequencerTurn_afterStep {r : Nat} {s t : State} (hr : Running r s) (h : sequencerTurn s = .next t) :
    ∃ r', r = r' + 1 ∧ AfterStep s r' t := by
  cases hr with
  | init hs =>
    rw [sequencerTurn_of_stage hs rfl] at h
    simp only [exec, execInit] at h
    obtain ⟨r', hr', hrun⟩ := initLanes_running s
    split_ifs at h <;> cases h
    · exact ⟨r', hr', .faulted rfl rfl rfl (.inr rfl)⟩
    · exact ⟨r', hr', .running hrun rfl rfl⟩
  | block hs lo =>
    rw [sequencerTurn_of_stage hs rfl] at h
    refine ⟨_, rfl, readingStage_afterStep h fun w => ⟨?_, rfl, rfl⟩⟩
    obtain ⟨r', hr', hrun⟩ := mixBlock_running w lo
    exact Nat.succ_inj.mp hr' ▸ hrun
  | fold hs hi =>
    rw [sequencerTurn_of_stage hs rfl] at h
    cases h
    exact ⟨tailSteps s.n.toNat + 1, by omega, .running (stepsLeft_dispatch hi.le) rfl rfl⟩
  | tail25 hs lo hi | tail17 hs lo hi | tail9 hs lo hi =>
    rw [sequencerTurn_of_stage hs rfl] at h
    obtain ⟨r', hr', hrun⟩ := advance8_running (s := s) (by omega) (by omega)
    exact ⟨r', hr', readingStage_afterStep h fun w => ⟨hrun, rfl, rfl⟩⟩
  | tail1 hs lo hi =>
    rw [sequencerTurn_of_stage hs rfl] at h
    simp only [exec, execTail1, tail64, lo, hi, and_self, if_true] at h
    exact ⟨_, rfl, readingStage_afterStep h fun w => ⟨tailSteps_last lo hi ▸ .final rfl rfl, rfl, rfl⟩⟩
  | final hs _ =>
    rw [sequencerTurn_of_stage hs rfl] at h
    cases h
    exact ⟨0, rfl, .completed rfl rfl rfl⟩

/-! ### On ordinary memory the sequencer always moves -/

/-- No address of the data space has read side effects (20_memory.md R58). -/
def OrdinaryMemory (s : State) : Prop := ∀ addr, s.platform.hasSideEffects addr = false

theorem OrdinaryMemory.memRead_ne_unsaid {s : State} (h : OrdinaryMemory s) (addr x : Nat) :
    memRead s addr ≠ .unsaid x := by
  intro hu
  obtain ⟨-, -, -, hside⟩ := memRead_eq_unsaid.mp hu
  rw [h addr] at hside
  cases hside

theorem ReadResult.both_ne_unsaid {α β γ : Type} {f : α → β → γ} {x : ReadResult α} {y : ReadResult β}
    (hx : ∀ addr, x ≠ .unsaid addr) (hy : ∀ addr, y ≠ .unsaid addr) (addr : Nat) :
    ReadResult.both f x y ≠ .unsaid addr := by
  intro h
  rcases ReadResult.both_eq_unsaid.mp h with h | ⟨-, h⟩
  · exact hx addr h
  · exact hy addr h

theorem OrdinaryMemory.loadLE_ne_unsaid {s : State} (h : OrdinaryMemory s) (p k : Nat) :
    ∀ addr, loadLE s p k ≠ .unsaid addr := by
  induction k with
  | zero => exact fun _ he => nomatch he
  | succ k ih => exact ReadResult.both_ne_unsaid ih (h.memRead_ne_unsaid (p + k))

theorem OrdinaryMemory.loadBlock_ne_unsaid {s : State} (h : OrdinaryMemory s) (p : Nat) :
    ∀ addr, loadBlock s p ≠ .unsaid addr :=
  ReadResult.both_ne_unsaid
    (ReadResult.both_ne_unsaid (h.loadLE_ne_unsaid p 8) (h.loadLE_ne_unsaid (p + 8) 8))
    (ReadResult.both_ne_unsaid (h.loadLE_ne_unsaid (p + 16) 8) (h.loadLE_ne_unsaid (p + 24) 8))

/-- A reading stage moves unless it meets a read with side effects. -/
theorem readingStage_moves {α : Type} {s : State} {p k : Nat} {r : ReadResult α} {writes : α → State}
    (h : ∀ addr, r ≠ .unsaid addr) : ∃ t, readingStage s p k r writes = .next t := by
  cases r with
  | ok v => exact ⟨_, rfl⟩
  | refused addr => exact ⟨_, rfl⟩
  | unsaid addr => exact absurd rfl (h addr)

/-- On ordinary memory the sequencer's step of a running operation is neither a fault nor a refusal (30_encoding.md R71). -/
theorem sequencerTurn_moves {r : Nat} {s : State} (hr : Running r s) (ho : OrdinaryMemory s) :
    ∃ t, sequencerTurn s = .next t := by
  cases hr with
  | init hs =>
    rw [sequencerTurn_of_stage hs rfl]
    simp only [exec, execInit]
    split_ifs <;> exact ⟨_, rfl⟩
  | block hs =>
    rw [sequencerTurn_of_stage hs rfl]
    exact readingStage_moves (ho.loadBlock_ne_unsaid _)
  | tail25 hs | tail17 hs | tail9 hs =>
    rw [sequencerTurn_of_stage hs rfl]
    exact readingStage_moves (ho.loadLE_ne_unsaid _ 8)
  | tail1 hs lo hi =>
    rw [sequencerTurn_of_stage hs rfl]
    simp only [exec, execTail1, tail64, lo, hi, and_self, if_true]
    exact readingStage_moves (ho.loadLE_ne_unsaid _ _)
  | fold hs | final hs =>
    rw [sequencerTurn_of_stage hs rfl]
    exact ⟨_, rfl⟩

/-! ### Operations on ordinary memory end -/

/-- An operation on ordinary memory runs with `r` steps to go, DIGEST still `digest`. -/
structure RunsOrdinary (digest : Word) (r : Nat) (s : State) : Prop where
  running : Running r s
  legal : LegalProgram s
  ordinary : OrdinaryMemory s
  done : s.done = false
  digest : s.digest = digest

/-- The operation has completed, or has stopped by a fault with DONE and DIGEST as they were. -/
def EndedOrFaulted (digest : Word) (t : State) : Prop :=
  (t.stage = stageIdle ∧ t.done = true) ∨
    (t.stage = stageFaulted ∧ t.done = false ∧ t.digest = digest ∧ (t.cause = 1 ∨ t.cause = 2))

/-- The lines to come stay legal where the platform and the program stay. -/
theorem LegalProgram.congr {s t : State} (h : LegalProgram s) (hp : t.platform = s.platform)
    (hl : t.program = s.program) : LegalProgram t := by
  intro a ha
  rw [hp]
  exact h a (hl ▸ ha)

/-- In any order of turns without a reset an operation on ordinary memory progresses to its end. -/
theorem runsOrdinary_progresses (digest : Word) :
    Progresses (· ≠ .reset) (RunsOrdinary digest) (fun _ => EndedOrFaulted digest) where
  busy h := h.running.busy
  reschedule _ h := ⟨h.running, h.legal, h.ordinary, h.done, h.digest⟩
  sequencer {r s} h := by
    obtain ⟨t, ht⟩ := sequencerTurn_moves h.running h.ordinary
    obtain ⟨hp, -, hl, -⟩ := sequencerTurn_sameOutside ht
    obtain ⟨r', hr, hafter⟩ := sequencerTurn_afterStep h.running ht
    refine ⟨r', t, hr, ht, ?_⟩
    cases hafter with
    | running hrun hdone hdigest =>
      exact .inl ⟨hrun, h.legal.congr hp hl, fun addr => hp ▸ h.ordinary addr, hdone.trans h.done,
        hdigest.trans h.digest⟩
    | completed _ hstage hdone => exact .inr (.inl ⟨hstage, hdone⟩)
    | faulted hstage hdone hdigest hcause =>
      exact .inr (.inr ⟨hstage, hdone.trans h.done, hdigest.trans h.digest, hcause⟩)
  other {r s turn} h hturn hseq := by
    cases turn with
    | sequencer => exact absurd rfl hseq
    | reset => exact absurd rfl hturn
    | host =>
      obtain ⟨da, l, sd, rd, lines, ht, hl⟩ := hostTurn_of_busy h.running.busy h.legal
      exact ⟨_, (unlessReserved_of_busy h.running.busy _).trans ht, h.running, hl, h.ordinary, h.done, h.digest⟩
    | memWrite addr byte =>
      refine ⟨_, unlessReserved_of_busy h.running.busy _, ?_, ?_, ?_, ?_, ?_⟩
      · simpa [Running] using h.running
      · exact h.legal.congr (storeByte_platform s addr byte) (storeByte_program s addr byte)
      · simpa [OrdinaryMemory] using h.ordinary
      · simpa using h.done
      · simpa using h.digest

/-- Settles O51: an operation on ordinary memory has S(len) steps to go from INIT on, and progresses to its end. -/
theorem operationsEndOrFault : Obligations.OperationsEndOrFault := by
  intro s hinit hinv hreset hlegal hordinary
  have hdone : s.done = false := by
    by_contra hd
    have hidle := hinv.done (by simpa using hd)
    rw [hinit.stage] at hidle
    exact absurd hidle (by decide)
  have hrun : RunsOrdinary s.digest (operationSteps s.lenL.toNat) s :=
    ⟨.init hinit.stage, hlegal, hordinary, hdone, rfl⟩
  obtain ⟨k, q, r', t, hk, hle, hq, hend⟩ := (runsOrdinary_progresses s.digest).exists_runsBusy hrun
    fun turn hturn heq => hreset (heq ▸ hturn)
  exact ⟨k, by omega, t, hk.run, by rw [hk.turns]; omega, hk.busy, hend⟩

end Sys2Proof.Machine
end

section
/-! PROOFS. The loads of readable bytes are the little-endian words of the closed form (40_byte_loader.md R100, 00_scope.md R12). -/

namespace Sys2Proof.Machine

theorem leSum_lt (m : Nat → Byte) (p k : Nat) : leSum m p k < 2 ^ (8 * k) := by
  induction k with
  | zero => simp [leSum]
  | succ k ih =>
    have hb : (m (p + k)).toNat ≤ 255 := Nat.le_of_lt_succ (m (p + k)).isLt
    have hpow : 2 ^ (8 * (k + 1)) = 256 * 2 ^ (8 * k) := by rw [Nat.mul_succ, Nat.pow_add]; omega
    have hmul := Nat.mul_le_mul_right (2 ^ (8 * k)) hb
    simp only [leSum]
    omega

/-- One more byte goes into the word above those before it. -/
theorem leWord_succ (m : Nat → Byte) (p : Nat) {k : Nat} (h : k < 8) :
    leWord m p (k + 1) = leWord m p k ||| ((m (p + k)).setWidth 64 <<< (8 * k)) := by
  have hsum := leSum_lt m p k
  have hbyte := (m (p + k)).isLt
  have hpow : 2 ^ (8 * k) * 2 ^ 8 ≤ 2 ^ 64 := by
    rw [← Nat.pow_add]
    exact Nat.pow_le_pow_right (by decide) (by omega)
  have hshift : (m (p + k)).toNat * 2 ^ (8 * k) + 2 ^ (8 * k) ≤ 2 ^ 64 := by
    refine le_trans ?_ hpow
    rw [← Nat.succ_mul, Nat.mul_comm]
    exact Nat.mul_le_mul_left _ hbyte
  apply BitVec.eq_of_toNat_eq
  rw [BitVec.toNat_or, BitVec.toNat_shiftLeft, BitVec.toNat_setWidth, leWord, leWord, BitVec.toNat_ofNat,
    BitVec.toNat_ofNat, leSum, Nat.shiftLeft_eq, Nat.mod_eq_of_lt (a := (m (p + k)).toNat) (by omega),
    Nat.mod_eq_of_lt (by omega), Nat.mod_eq_of_lt (by omega), Nat.mod_eq_of_lt (by omega), Nat.or_comm,
    Nat.mul_comm (m (p + k)).toNat, ← Nat.two_pow_add_eq_or_of_lt hsum, Nat.add_comm]

/-- LoadLE of readable bytes: those from `p` on are the bytes of `m` from `q` on (40_byte_loader.md R100). -/
theorem loadLE_of_reads {s : State} {m : Nat → Byte} {p q k : Nat} (hk : k ≤ 8)
    (h : ∀ i < k, memRead s (p + i) = .ok (m (q + i))) : loadLE s p k = .ok (leWord m q k) := by
  induction k with
  | zero => rfl
  | succ k ih =>
    rw [loadLE, ih (by omega) fun i hi => h i (by omega), h k (by omega), leWord_succ m q (by omega)]
    rfl

/-- The four words of a readable block (43_block_mixer.md R131). -/
theorem loadBlock_of_reads {s : State} {m : Nat → Byte} {p q : Nat}
    (h : ∀ i < 32, memRead s (p + i) = .ok (m (q + i))) :
    loadBlock s p = .ok ⟨leWord m q 8, leWord m (q + 8) 8, leWord m (q + 16) 8, leWord m (q + 24) 8⟩ := by
  have hload : ∀ j, j + 8 ≤ 32 → load64 s (p + j) = .ok (leWord m (q + j) 8) := fun j hj =>
    loadLE_of_reads le_rfl fun i hi => by simpa only [Nat.add_assoc] using h (j + i) (by omega)
  rw [loadBlock, show load64 s p = _ from hload 0 (by omega), hload 8 (by omega), hload 16 (by omega), hload 24 (by omega)]
  rfl

end Sys2Proof.Machine
end

section
/-! PROOFS. The digest a running operation is going to give, written with the closed form of 00_scope.md R12: every step
keeps it until FINAL delivers it (43_block_mixer.md R131, R133; 44_tail_absorber.md R141 to R144; 45_finalizer.md R150). -/

namespace Sys2Proof.Machine

/-! ### The closed form, cut where the stages are -/

/-- R12's fold of c and d into a and b. -/
def foldVars (rom : Rom) (v : HashVars) : HashVars :=
  { v with
    a := v.a ^^^ (rom.p6 * (rotr v.c s1 + v.d))
    b := v.b ^^^ (rom.p5 * (v.c + rotr v.d s1)) }

/-- R12's last line. -/
def digestOf (rom : Rom) (v : HashVars) : Word :=
  mux64 (rotr (v.a + v.b) s1) rom.p4 + mix (v.a ^^^ v.b) rom.p0

/-- R12's lanes before the loop. -/
def startVars (len seed : Word) : HashVars :=
  { a := seed, b := len, c := rotr len s1 + seed, d := len ^^^ rotr seed s1, p := 0 }

theorem hash_of_le (rom : Rom) (m : Nat → Byte) {len : Word} (seed : Word) (h : len.toNat ≤ 32) :
    hash rom m len seed = digestOf rom (hashTail rom m len.toNat (startVars len seed)) := by
  have hhead : hashHead rom m len seed = startVars len seed := if_neg (Nat.not_lt.mpr h)
  rw [hash, hhead, digestOf]

theorem hash_of_lt (rom : Rom) (m : Nat → Byte) {len : Word} (seed : Word) (h : 32 < len.toNat) :
    hash rom m len seed =
      digestOf rom (hashTail rom m len.toNat
        (foldVars rom (hashLoop rom m len.toNat (len.toNat / 32) (startVars len seed)))) := by
  have hhead : hashHead rom m len seed = foldVars rom (hashLoop rom m len.toNat (len.toNat / 32) (startVars len seed)) :=
    if_pos h
  rw [hash, hhead, digestOf]

section Tail
variable (rom : Rom) (m : Nat → Byte) {len : Nat} {v : HashVars}

theorem hashTail_25 (lo : 25 ≤ len - v.p) (hi : len - v.p ≤ 32) :
    hashTail rom m len v =
      hashTail rom m len { v with b := v.b + mux64 (leWord m v.p 8) rom.p4, p := v.p + 8 } := by
  have h25 : ¬25 ≤ len - (v.p + 8) := by omega
  have h17 : 17 ≤ len - (v.p + 8) := by omega
  simp only [hashTail, if_pos lo, if_neg h25, if_pos h17, if_pos (show 17 ≤ len - v.p by omega),
    if_pos (show 9 ≤ len - v.p by omega), if_pos (show 1 ≤ len - v.p by omega),
    if_pos (show 9 ≤ len - (v.p + 8) by omega), if_pos (show 1 ≤ len - (v.p + 8) by omega)]

theorem hashTail_17 (lo : 17 ≤ len - v.p) (hi : len - v.p ≤ 24) :
    hashTail rom m len v =
      hashTail rom m len { v with a := v.a + mux64 (leWord m v.p 8) rom.p3, p := v.p + 8 } := by
  simp only [hashTail, if_neg (show ¬25 ≤ len - v.p by omega), if_pos lo,
    if_pos (show 9 ≤ len - v.p by omega), if_pos (show 1 ≤ len - v.p by omega),
    if_neg (show ¬25 ≤ len - (v.p + 8) by omega), if_neg (show ¬17 ≤ len - (v.p + 8) by omega),
    if_pos (show 9 ≤ len - (v.p + 8) by omega), if_pos (show 1 ≤ len - (v.p + 8) by omega)]

theorem hashTail_9 (lo : 9 ≤ len - v.p) (hi : len - v.p ≤ 16) :
    hashTail rom m len v =
      hashTail rom m len { v with b := v.b + mux64 (leWord m v.p 8) rom.p2, p := v.p + 8 } := by
  simp only [hashTail, if_neg (show ¬25 ≤ len - v.p by omega), if_neg (show ¬17 ≤ len - v.p by omega), if_pos lo,
    if_pos (show 1 ≤ len - v.p by omega), if_neg (show ¬25 ≤ len - (v.p + 8) by omega),
    if_neg (show ¬17 ≤ len - (v.p + 8) by omega), if_neg (show ¬9 ≤ len - (v.p + 8) by omega),
    if_pos (show 1 ≤ len - (v.p + 8) by omega)]

theorem hashTail_1 (lo : 1 ≤ len - v.p) (hi : len - v.p ≤ 8) :
    hashTail rom m len v = { v with a := v.a + mux64 (leWord m v.p (len - v.p)) rom.p1 } := by
  simp only [hashTail, if_neg (show ¬25 ≤ len - v.p by omega), if_neg (show ¬17 ≤ len - v.p by omega),
    if_neg (show ¬9 ≤ len - v.p by omega), if_pos lo]

theorem hashTail_0 (h : len - v.p = 0) : hashTail rom m len v = v := by
  simp [hashTail, h]

end Tail

/-! ### The digest to come -/

/-- The lanes of `s` and the bytes it has read, as the variables of R12. -/
def varsOf (s : State) : HashVars := { a := s.a, b := s.b, c := s.c, d := s.d, p := consumed s }

/-- The digest to come past the fold: the tail of the bytes left, and the last line. -/
def tailDigest (m : Nat → Byte) (s : State) : Word :=
  digestOf s.platform.rom (hashTail s.platform.rom m s.lenL.toNat (varsOf s))

/-- The digest that an operation on the bytes `m` is going to give from `s` on. -/
def digestToCome (m : Nat → Byte) (s : State) : Word :=
  if s.stage = stageInit then hash s.platform.rom m s.lenL s.seedL
  else if s.stage = stageBlock then
    digestOf s.platform.rom (hashTail s.platform.rom m s.lenL.toNat
      (foldVars s.platform.rom (hashLoop s.platform.rom m s.lenL.toNat (s.n.toNat / 32) (varsOf s))))
  else if s.stage = stageFold then
    digestOf s.platform.rom (hashTail s.platform.rom m s.lenL.toNat (foldVars s.platform.rom (varsOf s)))
  else tailDigest m s

section DigestToCome
variable (m : Nat → Byte) {s : State}

theorem digestToCome_init (h : s.stage = stageInit) : digestToCome m s = hash s.platform.rom m s.lenL s.seedL := by
  rw [digestToCome, if_pos h]

theorem digestToCome_block (h : s.stage = stageBlock) :
    digestToCome m s = digestOf s.platform.rom (hashTail s.platform.rom m s.lenL.toNat
      (foldVars s.platform.rom (hashLoop s.platform.rom m s.lenL.toNat (s.n.toNat / 32) (varsOf s)))) := by
  rw [digestToCome, if_neg (h ▸ by decide), if_pos h]

theorem digestToCome_fold (h : s.stage = stageFold) :
    digestToCome m s =
      digestOf s.platform.rom (hashTail s.platform.rom m s.lenL.toNat (foldVars s.platform.rom (varsOf s))) := by
  rw [digestToCome, if_neg (h ▸ by decide), if_neg (h ▸ by decide), if_pos h]

/-- The stages past the fold. -/
theorem digestToCome_tail (h : s.stage ∈ [stageTail25, stageTail17, stageTail9, stageTail1, stageFinal]) :
    digestToCome m s = tailDigest m s := by
  have hne : ∀ code ∈ [stageTail25, stageTail17, stageTail9, stageTail1, stageFinal],
      code ≠ stageInit ∧ code ≠ stageBlock ∧ code ≠ stageFold := by decide
  obtain ⟨h1, h2, h3⟩ := hne _ h
  rw [digestToCome, if_neg h1, if_neg h2, if_neg h3]

end DigestToCome

/-- The tail dispatch leads to a stage past the fold (44_tail_absorber.md R140). -/
theorem dispatch_mem (n : Word) : dispatch n ∈ [stageTail25, stageTail17, stageTail9, stageTail1, stageFinal] := by
  unfold dispatch
  split_ifs <;> decide

theorem dispatch_runs (n : Word) : dispatch n ∉ [stageInit, stageIdle, stageFaulted] := by
  unfold dispatch
  split_ifs <;> decide

/-! ### An operation on readable input -/

/-- The bytes still to be read: N, or LEN_L before INIT has set N. -/
def bytesLeft (s : State) : Nat := if s.stage = stageInit then s.lenL.toNat else s.n.toNat

theorem bytesLeft_of_ne {s : State} (h : s.stage ≠ stageInit) : bytesLeft s = s.n.toNat := if_neg h

/-- `s` is a state of the operation that began at `s₀` on the readable bytes `m`, and is going to give the digest that was
to come there. -/
structure Tracks (m : Nat → Byte) (s₀ s : State) : Prop where
  start : s₀.ptr.toNat < 2 ^ 64
  stage : s.stage ∉ [stageIdle, stageFaulted]
  reads : InputReads s s₀.ptr.toNat s.lenL.toNat m
  left : bytesLeft s ≤ s.lenL.toNat
  bracket : s.ptr.toNat + bytesLeft s = s₀.ptr.toNat + s.lenL.toNat
  digest : digestToCome m s = digestToCome m s₀
  cause : s.cause = s₀.cause
  faultAddr : s.faultAddr = s₀.faultAddr

/-- What every stage keeps that does not fault: the input, and the fault registers. -/
structure SameInput (s t : State) : Prop where
  memRead : memRead t = memRead s
  lenL : t.lenL = s.lenL
  cause : t.cause = s.cause
  faultAddr : t.faultAddr = s.faultAddr

/-- A step past INIT that reads on by what it takes off the bytes left stays in the operation, if it keeps the digest. -/
theorem Tracks.advance {m : Nat → Byte} {s₀ s t : State} (h : Tracks m s₀ s) (hk : SameInput s t)
    (hstage : t.stage ∉ [stageInit, stageIdle, stageFaulted]) (hle : t.n.toNat ≤ bytesLeft s)
    (hptr : t.ptr.toNat + t.n.toNat = s.ptr.toNat + bytesLeft s) (hd : digestToCome m t = digestToCome m s) :
    Tracks m s₀ t where
  start := h.start
  stage hmem := hstage (List.mem_cons_of_mem _ hmem)
  reads i hi := by
    rw [hk.memRead]
    exact h.reads i (hk.lenL ▸ hi)
  left := by
    rw [bytesLeft_of_ne (List.ne_of_not_mem_cons hstage), hk.lenL]
    exact hle.trans h.left
  bracket := by rw [bytesLeft_of_ne (List.ne_of_not_mem_cons hstage), hk.lenL, hptr, h.bracket]
  digest := hd.trans h.digest
  cause := hk.cause.trans h.cause
  faultAddr := hk.faultAddr.trans h.faultAddr

section PastInit
variable {m : Nat → Byte} {s₀ s : State} (h : Tracks m s₀ s) (hs : s.stage ≠ stageInit)
include h hs

theorem Tracks.n_le : s.n.toNat ≤ s.lenL.toNat := bytesLeft_of_ne hs ▸ h.left

/-- The bytes at PTR are those of the input from the first one not read on. -/
theorem Tracks.reads_at_ptr {k : Nat} (hk : k ≤ s.n.toNat) :
    ∀ i < k, memRead s (s.ptr.toNat + i) = .ok (m (consumed s + i)) := by
  intro i hi
  have hle := h.n_le hs
  have hb := h.bracket
  rw [bytesLeft_of_ne hs] at hb
  have haddr : s.ptr.toNat + i = s₀.ptr.toNat + (consumed s + i) := by
    unfold consumed
    omega
  rw [haddr]
  exact h.reads _ (by unfold consumed; omega)

/-- PTR does not wrap when it moves over bytes of the input. -/
theorem Tracks.ptr_add {k : Pointer} (hk : k.toNat ≤ s.n.toNat) : (s.ptr + k).toNat = s.ptr.toNat + k.toNat := by
  have hb := h.bracket
  have hstart := h.start
  have hlen := s.lenL.isLt
  rw [bytesLeft_of_ne hs] at hb
  rw [BitVec.toNat_add]
  exact Nat.mod_eq_of_lt (by omega)

/-- What is left of the input past the bytes read is N. -/
theorem Tracks.len_sub_consumed : s.lenL.toNat - (varsOf s).p = s.n.toNat := by
  have hle := h.n_le hs
  change s.lenL.toNat - consumed s = _
  unfold consumed
  omega

/-- Taking `k` bytes off N adds them to the bytes read. -/
theorem Tracks.consumed_of_sub {t : State} {k : Word} (hk : k.toNat ≤ s.n.toNat) (hn : t.n = s.n - k)
    (hl : t.lenL = s.lenL) : consumed t = consumed s + k.toNat := by
  have hle := h.n_le hs
  unfold consumed
  rw [hn, hl, toNat_sub_of_le_toNat hk]
  omega

end PastInit

/-! ### Each stage keeps the digest to come -/

/-- INIT begins R12's loop, or its tail. -/
theorem digestToCome_initLanes (m : Nat → Byte) (s : State) :
    digestToCome m (initLanes s) = hash s.platform.rom m s.lenL s.seedL := by
  have hvars : varsOf (initLanes s) = startVars s.lenL s.seedL := by
    simp [varsOf, startVars, consumed]
  by_cases hlen : 32 < s.lenL.toNat
  · rw [digestToCome_block m (if_pos hlen), hash_of_lt _ m _ hlen, hvars]
    rfl
  · have hstage : (initLanes s).stage = dispatch s.lenL := if_neg hlen
    rw [digestToCome_tail m (hstage ▸ dispatch_mem _), hash_of_le _ m _ (Nat.not_lt.mp hlen), tailDigest, hvars]
    rfl

/-- BLOCK is one round of R12's loop. -/
theorem digestToCome_mixBlock {m : Nat → Byte} {s₀ s t : State} (h : Tracks m s₀ s) (hs : s.stage = stageBlock)
    (lo : 32 ≤ s.n.toNat)
    (ht : t = recordReads (mixBlock s ⟨leWord m (consumed s) 8, leWord m (consumed s + 8) 8,
      leWord m (consumed s + 16) 8, leWord m (consumed s + 24) 8⟩) (List.range' s.ptr.toNat 32)) :
    digestToCome m t = digestToCome m s := by
  have hne : s.stage ≠ stageInit := hs ▸ by decide
  have hn : t.n.toNat = s.n.toNat - 32 := by rw [ht]; exact toNat_sub_of_le_toNat (k := 32) lo
  have hcons : consumed t = consumed s + 32 := h.consumed_of_sub hne (k := 32) lo (by rw [ht]; rfl) (by rw [ht]; rfl)
  have hvars : varsOf t = hashBlock s.platform.rom m (varsOf s) := by
    rw [varsOf, hcons, ht]
    rfl
  have hmore : s.lenL.toNat - (hashBlock s.platform.rom m (varsOf s)).p = t.n.toNat := by
    have hleft := h.len_sub_consumed hne
    change s.lenL.toNat - ((varsOf s).p + 32) = _
    omega
  have hrounds : s.n.toNat / 32 = t.n.toNat / 32 + 1 := by omega
  have hstage : t.stage = if 32 ≤ t.n.toNat then stageBlock else stageFold := by rw [ht]; rfl
  have hrom : t.platform.rom = s.platform.rom := by rw [ht]; rfl
  have hlen : t.lenL = s.lenL := by rw [ht]; rfl
  rw [digestToCome_block m hs, hrounds, hashLoop, hmore]
  by_cases hmore : 32 ≤ t.n.toNat
  · rw [if_pos hmore] at hstage
    rw [digestToCome_block m hstage, hvars, hrom, hlen, if_pos hmore]
  · rw [if_neg hmore] at hstage
    rw [digestToCome_fold m hstage, hvars, hrom, hlen, if_neg hmore]

/-- FOLD is R12's fold. -/
theorem digestToCome_execFold {m : Nat → Byte} {s t : State} (hs : s.stage = stageFold) (ht : execFold s = .next t) :
    digestToCome m t = digestToCome m s := by
  cases ht
  rw [digestToCome_fold m hs, digestToCome_tail m (dispatch_mem _)]
  rfl

/-! ### Each stage on readable input -/

theorem readingStage_of_ok {α : Type} {s : State} {p k : Nat} {r : ReadResult α} {writes : α → State} {v : α}
    (h : r = .ok v) : readingStage s p k r writes = .next (recordReads (writes v) (List.range' p k)) := by
  rw [h]
  rfl

/-- A readable input lies in the address space, so that INIT raises no RangeFault (42_host_and_init.md R121). -/
theorem Tracks.outOfRange_eq_false {m : Nat → Byte} {s₀ s : State} (h : Tracks m s₀ s) (hs : s.stage = stageInit) :
    outOfRange s = false := by
  have hb := h.bracket
  rw [bytesLeft, if_pos hs] at hb
  simp only [outOfRange, Bool.and_eq_false_imp, decide_eq_true_eq, decide_eq_false_iff_not]
  intro hpos
  obtain ⟨hlt, -⟩ := memRead_eq_ok.mp (h.reads (s.lenL.toNat - 1) (by omega))
  omega

theorem Tracks.initLanes {m : Nat → Byte} {s₀ s : State} (h : Tracks m s₀ s) (hs : s.stage = stageInit) :
    Tracks m s₀ (initLanes s) := by
  have hleft : bytesLeft s = s.lenL.toNat := if_pos hs
  refine h.advance ⟨rfl, rfl, rfl, rfl⟩ ?_ hleft.ge (by rw [hleft]; rfl) ?_
  · rw [initLanes_stage]
    split_ifs
    · decide
    · exact dispatch_runs _
  · rw [digestToCome_init m hs, digestToCome_initLanes]

theorem Tracks.block {m : Nat → Byte} {s₀ s : State} (h : Tracks m s₀ s) (hs : s.stage = stageBlock)
    (lo : 32 ≤ s.n.toNat) : ∃ t, execBlock s = .next t ∧ Tracks m s₀ t := by
  have hne : s.stage ≠ stageInit := hs ▸ by decide
  have hn : (s.n - 32).toNat = s.n.toNat - 32 := toNat_sub_of_le_toNat (k := 32) lo
  refine ⟨_, readingStage_of_ok (loadBlock_of_reads (h.reads_at_ptr hne lo)), ?_⟩
  refine h.advance ⟨rfl, rfl, rfl, rfl⟩ ?_ ?_ ?_ (digestToCome_mixBlock h hs lo rfl)
  · rw [recordReads_stage, mixBlock_stage]
    split_ifs <;> decide
  · rw [bytesLeft_of_ne hne, recordReads_n, mixBlock_n, hn]
    exact Nat.sub_le _ _
  · rw [bytesLeft_of_ne hne, recordReads_n, mixBlock_n, hn, recordReads_ptr, mixBlock_ptr, h.ptr_add hne (k := 32) lo]
    change s.ptr.toNat + 32 + _ = _
    omega

theorem Tracks.fold {m : Nat → Byte} {s₀ s : State} (h : Tracks m s₀ s) (hs : s.stage = stageFold) :
    ∃ t, execFold s = .next t ∧ Tracks m s₀ t := by
  have hleft : bytesLeft s = s.n.toNat := bytesLeft_of_ne (hs ▸ by decide)
  exact ⟨_, rfl, h.advance ⟨rfl, rfl, rfl, rfl⟩ (dispatch_runs _) hleft.ge (by rw [hleft])
    (digestToCome_execFold hs rfl)⟩

/-- A full tail stage, given that its new lanes and the eight bytes taken off leave R12's tail the same. -/
theorem Tracks.fullTail {m : Nat → Byte} {s₀ s : State} (h : Tracks m s₀ s)
    (hs : s.stage ∈ [stageTail25, stageTail17, stageTail9, stageTail1, stageFinal]) (lo : 8 ≤ s.n.toNat)
    {a b : Word → Word}
    (htail : hashTail s.platform.rom m s.lenL.toNat (varsOf s) =
      hashTail s.platform.rom m s.lenL.toNat
        { varsOf s with
          a := a (leWord m (varsOf s).p 8), b := b (leWord m (varsOf s).p 8), p := (varsOf s).p + 8 }) :
    ∃ t, readingStage s s.ptr.toNat 8 (load64 s s.ptr.toNat) (fun w => { advance8 s with a := a w, b := b w }) = .next t ∧
      Tracks m s₀ t := by
  have hne : s.stage ≠ stageInit := fun he => absurd (he ▸ hs) (by decide)
  have hsub : (s.n - 8).toNat = s.n.toNat - 8 := toNat_sub_of_le_toNat (k := 8) lo
  refine ⟨_, readingStage_of_ok (loadLE_of_reads le_rfl (h.reads_at_ptr hne lo)), ?_⟩
  generalize ht : recordReads _ _ = t
  have hn : t.n = s.n - 8 := by rw [← ht]; rfl
  have hptr : t.ptr = s.ptr + 8 := by rw [← ht]; rfl
  have hstage : t.stage = dispatch (s.n - 8) := by rw [← ht]; rfl
  have hlen : t.lenL = s.lenL := by rw [← ht]; rfl
  have hrom : t.platform.rom = s.platform.rom := by rw [← ht]; rfl
  refine h.advance (by rw [← ht]; exact ⟨rfl, rfl, rfl, rfl⟩) (hstage ▸ dispatch_runs _) ?_ ?_ ?_
  · rw [bytesLeft_of_ne hne, hn, hsub]
    exact Nat.sub_le _ _
  · rw [bytesLeft_of_ne hne, hn, hsub, hptr, h.ptr_add hne (k := 8) lo]
    change s.ptr.toNat + 8 + _ = _
    omega
  · have hvars : varsOf t = { varsOf s with
        a := a (leWord m (varsOf s).p 8), b := b (leWord m (varsOf s).p 8), p := (varsOf s).p + 8 } := by
      rw [varsOf, h.consumed_of_sub hne (k := 8) lo hn hlen, ← ht]
      rfl
    rw [digestToCome_tail m hs, digestToCome_tail m (hstage ▸ dispatch_mem _), tailDigest, tailDigest, htail, hvars,
      hrom, hlen]

theorem Tracks.tail1 {m : Nat → Byte} {s₀ s : State} (h : Tracks m s₀ s) (hs : s.stage = stageTail1)
    (lo : 1 ≤ s.n.toNat) (hi : s.n.toNat ≤ 8) : ∃ t, execTail1 s = .next t ∧ Tracks m s₀ t := by
  have hne : s.stage ≠ stageInit := hs ▸ by decide
  have hleft := h.len_sub_consumed hne
  have hload := loadLE_of_reads hi (h.reads_at_ptr hne le_rfl)
  have hwidth : (s.n.setWidth 65).toNat = s.n.toNat := BitVec.toNat_setWidth_of_le (by decide)
  simp only [execTail1, tail64, lo, hi, and_self, if_true]
  refine ⟨_, readingStage_of_ok hload, ?_⟩
  refine h.advance ⟨rfl, rfl, rfl, rfl⟩ (by decide : stageFinal ∉ _) (Nat.zero_le _) ?_ ?_
  · change (s.ptr + s.n.setWidth 65).toNat + 0 = _
    rw [bytesLeft_of_ne hne, h.ptr_add hne hwidth.le, hwidth, Nat.add_zero]
  · rw [digestToCome_tail m (by simp), digestToCome_tail m (by simp [hs]), tailDigest, tailDigest,
      hashTail_1 _ _ (hleft.ge.trans' lo) (hleft.le.trans hi), hashTail_0 _ _ (Nat.sub_self s.lenL.toNat), hleft]
    rfl

/-- `t` is where an operation begun at `s₀` on the bytes `m` has ended complete (45_finalizer.md R151). -/
structure Delivered (m : Nat → Byte) (s₀ t : State) : Prop where
  stage : t.stage = stageIdle
  done : t.done = true
  digest : t.digest = digestToCome m s₀
  cause : t.cause = s₀.cause
  faultAddr : t.faultAddr = s₀.faultAddr

theorem Tracks.final {m : Nat → Byte} {s₀ s : State} (h : Tracks m s₀ s) (hs : s.stage = stageFinal)
    (hn : s.n.toNat = 0) : ∃ t, execFinal s = .next t ∧ Delivered m s₀ t := by
  have hleft := h.len_sub_consumed (hs ▸ by decide)
  refine ⟨_, rfl, rfl, rfl, ?_, h.cause, h.faultAddr⟩
  rw [← h.digest, digestToCome_tail m (by simp [hs]), tailDigest, hashTail_0 _ _ (hleft.trans hn)]
  rfl

/-- Each sequencer step of an operation on readable input goes on with it, or delivers its digest. -/
theorem sequencerTurn_tracks {m : Nat → Byte} {r : Nat} {s₀ s : State} (hr : Running r s) (h : Tracks m s₀ s) :
    ∃ t, sequencerTurn s = .next t ∧ (Tracks m s₀ t ∨ Delivered m s₀ t) := by
  cases hr with
  | init hs =>
    rw [sequencerTurn_of_stage hs rfl]
    exact ⟨initLanes s, by simp [exec, execInit, h.outOfRange_eq_false hs], .inl (h.initLanes hs)⟩
  | block hs lo =>
    rw [sequencerTurn_of_stage hs rfl]
    exact (h.block hs lo).imp fun _ => And.imp_right .inl
  | fold hs =>
    rw [sequencerTurn_of_stage hs rfl]
    exact (h.fold hs).imp fun _ => And.imp_right .inl
  | tail25 hs lo hi =>
    rw [sequencerTurn_of_stage hs rfl]
    have hleft := h.len_sub_consumed (hs ▸ by decide)
    exact (h.fullTail (by simp [hs]) (by omega)
      (a := fun _ => s.a) (b := fun w => s.b + mux64 w s.platform.rom.p4)
      (hashTail_25 _ m (hleft.ge.trans' lo) (hleft.le.trans hi))).imp fun _ => And.imp_right .inl
  | tail17 hs lo hi =>
    rw [sequencerTurn_of_stage hs rfl]
    have hleft := h.len_sub_consumed (hs ▸ by decide)
    exact (h.fullTail (by simp [hs]) (by omega)
      (a := fun w => s.a + mux64 w s.platform.rom.p3) (b := fun _ => s.b)
      (hashTail_17 _ m (hleft.ge.trans' lo) (hleft.le.trans hi))).imp fun _ => And.imp_right .inl
  | tail9 hs lo hi =>
    rw [sequencerTurn_of_stage hs rfl]
    have hleft := h.len_sub_consumed (hs ▸ by decide)
    exact (h.fullTail (by simp [hs]) (by omega)
      (a := fun _ => s.a) (b := fun w => s.b + mux64 w s.platform.rom.p2)
      (hashTail_9 _ m (hleft.ge.trans' lo) (hleft.le.trans hi))).imp fun _ => And.imp_right .inl
  | tail1 hs lo hi =>
    rw [sequencerTurn_of_stage hs rfl]
    exact (h.tail1 hs lo hi).imp fun _ => And.imp_right .inl
  | final hs hn =>
    rw [sequencerTurn_of_stage hs rfl]
    exact (h.final hs hn).imp fun _ => And.imp_right .inr

/-! ### Operations on readable input end with the hash -/

/-- An operation begun at `s₀` on the readable bytes `m` runs with `r` steps to go. -/
structure RunsReadable (m : Nat → Byte) (s₀ : State) (r : Nat) (s : State) : Prop where
  running : Running r s
  legal : LegalProgram s
  tracks : Tracks m s₀ s

theorem Tracks.withHost {m : Nat → Byte} {s₀ s : State} (h : Tracks m s₀ s) (da l sd rd : Word)
    (lines : List HostLine) : Tracks m s₀ (withHost s da l sd rd lines) :=
  ⟨h.start, h.stage, h.reads, h.left, h.bracket, h.digest, h.cause, h.faultAddr⟩

/-- In any order of sequencer and host turns an operation on readable input progresses, and uses all its steps. -/
theorem runsReadable_progresses (m : Nat → Byte) (s₀ : State) :
    Progresses (fun turn => turn = .sequencer ∨ turn = .host) (RunsReadable m s₀)
      (fun r t => r = 0 ∧ Delivered m s₀ t) where
  busy h := h.running.busy
  reschedule _ h := ⟨h.running, h.legal, h.tracks.start, h.tracks.stage, h.tracks.reads, h.tracks.left,
    h.tracks.bracket, h.tracks.digest, h.tracks.cause, h.tracks.faultAddr⟩
  sequencer {r s} h := by
    obtain ⟨t, ht, hend⟩ := sequencerTurn_tracks h.running h.tracks
    obtain ⟨hp, -, hl, -⟩ := sequencerTurn_sameOutside ht
    obtain ⟨r', hr, hafter⟩ := sequencerTurn_afterStep h.running ht
    refine ⟨r', t, hr, ht, ?_⟩
    rcases hend with htracks | hdelivered
    · refine .inl ⟨?_, h.legal.congr hp hl, htracks⟩
      cases hafter with
      | running hrun => exact hrun
      | completed _ hstage => exact absurd hstage (List.ne_of_not_mem_cons htracks.stage)
      | faulted hstage => exact absurd (by simp [hstage]) htracks.stage
    · refine .inr ⟨?_, hdelivered⟩
      cases hafter with
      | running hrun => exact absurd hdelivered.stage (stage_ne_idle_of_busy hrun.busy)
      | completed hzero => exact hzero
      | faulted hstage => exact absurd (hdelivered.stage.symm.trans hstage) (by decide)
  other {r s turn} h hturn hseq := by
    obtain rfl := hturn.resolve_left hseq
    obtain ⟨da, l, sd, rd, lines, ht, hl⟩ := hostTurn_of_busy h.running.busy h.legal
    exact ⟨_, (unlessReserved_of_busy h.running.busy _).trans ht, h.running, hl, h.tracks.withHost da l sd rd lines⟩

/-- S(len) as 45_finalizer.md R153 writes it, with T(0) = 0 set apart. -/
theorem operationSteps_eq (len : Nat) :
    operationSteps len =
      let tail : Nat → Nat := fun n => if n = 0 then 0 else (n + 7) / 8
      if len ≤ 32 then 1 + tail len + 1 else 1 + len / 32 + 1 + tail (len % 32) + 1 := by
  have htail : tailSteps = fun n => if n = 0 then 0 else (n + 7) / 8 := by
    funext n
    unfold tailSteps
    split_ifs with h
    · simp [h]
    · rfl
  simp only [operationSteps, htail]

theorem AtInit.tracks {s : State} {m : Nat → Byte} (h : AtInit s) (hr : InputReads s s.ptr.toNat s.lenL.toNat m) :
    Tracks m s s where
  start := h.ptr
  stage := h.stage ▸ by decide
  reads := hr
  left := (if_pos h.stage).le
  bracket := by rw [bytesLeft, if_pos h.stage]
  digest := rfl
  cause := rfl
  faultAddr := rfl

/-- Settles O47: the digest to come at INIT is the closed form, and the operation progresses until FINAL delivers it. -/
theorem operationsEndWithTheHash : Obligations.OperationsEndWithTheHash := by
  intro s m hinit hturns hlegal hreads len tail steps
  have hsteps : operationSteps s.lenL.toNat = steps := operationSteps_eq _
  have hrun : RunsReadable m s steps s := ⟨hsteps ▸ .init hinit.stage, hlegal, hinit.tracks hreads⟩
  obtain ⟨k, q, r', t, hk, hle, hq, rfl, hend⟩ := (runsReadable_progresses m s).exists_runsBusy hrun hturns
  obtain rfl : q = steps := hq
  exact ⟨k, hle, t, hk.run, hk.turns, hend.digest.trans (digestToCome_init m hinit.stage), hend.done, hend.stage,
    hend.cause, hend.faultAddr, hk.busy⟩

end Sys2Proof.Machine
end

section
/-! PROOFS. The invariant by its parts, what it depends on, and that it holds after reset (10_state.md R21,
70_reset_and_hazards.md R180). -/

namespace Sys2Proof.Machine

/-! ### The part of the invariant that is about the data space -/

/-- The parameters are legal, and the data space and the draws are in their canonical form. -/
structure SpaceOk (s : State) : Prop where
  platform : s.platform.wf
  memory : Memory.wf s.mem
  memoryBelow : ∀ cell ∈ s.mem, cell.1 < 2 ^ s.platform.addrW
  drawn : Memory.wf s.drawn
  drawnReadable : ∀ cell ∈ s.drawn, s.mem.read cell.1 ≠ none

theorem Inv.space {s : State} (h : Inv s) : SpaceOk s :=
  ⟨h.platform, h.memory, h.memoryBelow, h.drawn, h.drawnReadable⟩

theorem SpaceOk.congr {s t : State} (h : SpaceOk s) (hp : t.platform = s.platform) (hm : t.mem = s.mem)
    (hd : t.drawn = s.drawn) : SpaceOk t where
  platform := hp ▸ h.platform
  memory := hm ▸ h.memory
  memoryBelow := by rw [hm, hp]; exact h.memoryBelow
  drawn := hd ▸ h.drawn
  drawnReadable := by rw [hm, hd]; exact h.drawnReadable

/-- A space of at most 2^64 addresses (00_scope.md R3). -/
theorem SpaceOk.size_le {s : State} (h : SpaceOk s) : 2 ^ s.platform.addrW ≤ 2 ^ 64 := by
  obtain ⟨⟨-, hle⟩, -⟩ := h.platform
  exact Nat.pow_le_pow_right (by decide) hle

theorem SpaceOk.lt_of_read {s : State} (h : SpaceOk s) {addr : Nat} (hr : s.mem.read addr ≠ none) :
    addr < 2 ^ s.platform.addrW := by
  obtain ⟨byte, hb⟩ := Option.ne_none_iff_exists'.mp hr
  exact h.memoryBelow (addr, byte) (Memory.mem_of_read hb)

/-- A store from outside keeps the data space in form: it writes readable addresses only. -/
theorem SpaceOk.storeByte {s : State} (h : SpaceOk s) (addr : Nat) (byte : Byte) : SpaceOk (storeByte s addr byte) := by
  obtain ⟨hm, hd⟩ := storeByte_wf addr byte h.memory h.drawn
  have hkept : ∀ x, s.mem.read x ≠ none → (Machine.storeByte s addr byte).mem.read x ≠ none := fun x hx =>
    mt (storeByte_read_eq_none s addr byte x).mp hx
  refine ⟨by simpa using h.platform, hm, ?_, hd, ?_⟩ <;> intro cell hc
  · rw [storeByte_platform]
    rcases storeByte_cases s addr byte with ⟨heq, -⟩ | ⟨hr, -, ⟨-, heq⟩ | ⟨-, heq⟩⟩ <;> rw [heq] at hc
    · exact h.memoryBelow cell hc
    all_goals
      rcases Memory.mem_write hc with rfl | hc
      · exact h.lt_of_read hr
      · exact h.memoryBelow cell hc
  · refine hkept _ ?_
    rcases storeByte_cases s addr byte with ⟨heq, -⟩ | ⟨hr, -, ⟨-, heq⟩ | ⟨-, heq⟩⟩ <;> rw [heq] at hc
    · exact h.drawnReadable cell hc
    · rcases Memory.mem_write hc with rfl | hc
      · exact hr
      · exact h.drawnReadable cell hc
    · exact h.drawnReadable cell hc

/-! ### What the rest of the invariant looks at -/

/-- `t` is at the same point of the same operation as `s`: all registers that the invariant is about are equal. -/
structure SamePoint (s t : State) : Prop where
  platform : t.platform = s.platform
  ptr : t.ptr = s.ptr
  n : t.n = s.n
  lenL : t.lenL = s.lenL
  stage : t.stage = s.stage
  done : t.done = s.done
  cause : t.cause = s.cause
  faultAddr : t.faultAddr = s.faultAddr
  reads : t.reads = s.reads

section SamePoint
variable {s t : State} (h : SamePoint s t)
include h

theorem SamePoint.trans {u : State} (hu : SamePoint t u) : SamePoint s u where
  platform := hu.platform.trans h.platform
  ptr := hu.ptr.trans h.ptr
  n := hu.n.trans h.n
  lenL := hu.lenL.trans h.lenL
  stage := hu.stage.trans h.stage
  done := hu.done.trans h.done
  cause := hu.cause.trans h.cause
  faultAddr := hu.faultAddr.trans h.faultAddr
  reads := hu.reads.trans h.reads

theorem SamePoint.consumed : consumed t = consumed s := by
  rw [Machine.consumed, h.lenL, h.n, Machine.consumed]

theorem SamePoint.pastInit : pastInit t = pastInit s := by
  rw [Machine.pastInit, h.stage, Machine.pastInit]

theorem SamePoint.countsOk (hc : CountsOk s) : CountsOk t where
  left := by rw [h.n, h.lenL]; exact hc.left
  start := by rw [h.consumed, h.ptr]; exact hc.start
  fits := by rw [h.lenL, h.ptr, h.n, h.platform]; exact hc.fits

theorem SamePoint.stageCounts (hc : StageCounts s) : StageCounts t where
  block := by rw [h.stage, h.n, h.lenL, h.consumed]; exact hc.block
  fold := by rw [h.stage, h.n, h.lenL]; exact hc.fold
  tail25 := by rw [h.stage, h.n, h.lenL]; exact hc.tail25
  tail17 := by rw [h.stage, h.n]; exact hc.tail17
  tail9 := by rw [h.stage, h.n]; exact hc.tail9
  tail1 := by rw [h.stage, h.n]; exact hc.tail1
  final := by rw [h.stage, h.n]; exact hc.final

theorem SamePoint.faultedStep {addrs : List Nat} (hf : FaultedStep s addrs) : FaultedStep t addrs where
  once := hf.once
  faulting := by rw [h.faultAddr]; exact hf.faulting
  inside := by rw [h.ptr, h.n]; exact hf.inside

end SamePoint

/-- The invariant holds at the same point of the same operation, whatever the host's side of the state and the bytes of the
readable addresses are. -/
theorem Inv.of_samePoint {s t : State} (h : Inv s) (hk : SamePoint s t) (hs : SpaceOk t)
    (hread : ∀ x, t.mem.read x = none ↔ s.mem.read x = none) : Inv t where
  platform := hs.platform
  memory := hs.memory
  memoryBelow := hs.memoryBelow
  drawn := hs.drawn
  drawnReadable := hs.drawnReadable
  stage := by rw [hk.stage]; exact h.stage
  done := by rw [hk.done, hk.stage]; exact h.done
  cause := by rw [hk.cause]; exact h.cause
  faulted := by rw [hk.stage, hk.cause]; exact h.faulted
  faultAddr := by rw [hk.cause, hk.faultAddr]; exact h.faultAddr
  init := by rw [hk.stage, hk.ptr, hk.reads]; exact h.init
  counts hp := hk.countsOk (h.counts (by rwa [← hk.pastInit, ← hk.done]))
  reads hp := by
    rw [hk.reads, hk.ptr, hk.consumed]
    exact h.reads (by rwa [← hk.pastInit, ← hk.done])
  readable addrs ha x hx hnone := by
    rw [hk.cause, hk.faultAddr]
    exact h.readable addrs (hk.reads ▸ ha) x hx ((hread x).mp hnone)
  stageCounts := hk.stageCounts h.stageCounts
  complete := by rw [hk.done, hk.n]; exact h.complete
  readFault hc := by
    obtain ⟨hcounts, hlo, hhi, before, last, hreads, hcover, hlast⟩ := h.readFault (hk.cause ▸ hc)
    rw [hk.ptr, hk.n, hk.faultAddr, hk.reads, hk.consumed]
    exact ⟨hk.countsOk hcounts, hlo, hhi, before, last, hreads, hcover, hk.faultedStep hlast⟩
  rangeFault := by rw [hk.cause, hk.reads, hk.faultAddr, hk.ptr, hk.lenL]; exact h.rangeFault

theorem samePoint_withHost (s : State) (da l sd rd : Word) (lines : List HostLine) :
    SamePoint s (withHost s da l sd rd lines) :=
  ⟨rfl, rfl, rfl, rfl, rfl, rfl, rfl, rfl, rfl⟩

theorem samePoint_withSchedule (s : State) (turns : List Turn) : SamePoint s { s with schedule := turns } :=
  ⟨rfl, rfl, rfl, rfl, rfl, rfl, rfl, rfl, rfl⟩

theorem samePoint_storeByte (s : State) (addr : Nat) (byte : Byte) : SamePoint s (storeByte s addr byte) := by
  constructor <;> simp

/-- The host's side of the state has no part in the invariant. -/
theorem Inv.withHost {s : State} (h : Inv s) (da l sd rd : Word) (lines : List HostLine) :
    Inv (withHost s da l sd rd lines) :=
  h.of_samePoint (samePoint_withHost s da l sd rd lines) (h.space.congr rfl rfl rfl) fun _ => Iff.rfl

theorem Inv.withSchedule {s : State} (h : Inv s) (turns : List Turn) : Inv { s with schedule := turns } :=
  h.of_samePoint (samePoint_withSchedule s turns) (h.space.congr rfl rfl rfl) fun _ => Iff.rfl

theorem Inv.storeByte {s : State} (h : Inv s) (addr : Nat) (byte : Byte) : Inv (storeByte s addr byte) :=
  h.of_samePoint (samePoint_storeByte s addr byte) (h.space.storeByte addr byte) (storeByte_read_eq_none s addr byte)

/-! ### States without a fault -/

theorem pastInit_iff {s : State} : pastInit s = true ↔ 2 ≤ s.stage.toNat ∧ s.stage.toNat ≤ 8 := by
  simp [pastInit]

theorem pastInit_of_stage {s : State} {code : BitVec 4} (hs : s.stage = code)
    (h : 2 ≤ code.toNat ∧ code.toNat ≤ 8 := by decide) : pastInit s = true :=
  pastInit_iff.mpr (hs ▸ h)

/-- The ranges of N say nothing of the stages up to INIT and of FAULTED. -/
theorem StageCounts.of_not_pastInit {s : State} (h : pastInit s = false) : StageCounts s := by
  have hne : ∀ code : BitVec 4, 2 ≤ code.toNat ∧ code.toNat ≤ 8 → s.stage ≠ code := by
    rintro code hcode rfl
    rw [pastInit_iff.mpr hcode] at h
    cases h
  constructor <;> exact fun hs => absurd hs (hne _ (by decide))

/-- What the invariant says of every state that no fault has stopped: FAULTED, CAUSE and FAULT_ADDR are clear, and only
readable bytes have been read. -/
structure NoFault (s : State) : Prop where
  space : SpaceOk s
  legal : stageCodeReserved s.stage = false
  stage : s.stage ≠ stageFaulted
  cause : s.cause = 0
  faultAddr : s.faultAddr = 0
  readable : ∀ addrs ∈ s.reads, ∀ x ∈ addrs, s.mem.read x ≠ none

theorem Inv.noFault {s : State} (h : Inv s) (hs : s.stage ≠ stageFaulted) : NoFault s := by
  have hcause : s.cause = 0 := by
    by_contra hc
    exact hs (h.faulted.mpr hc)
  refine ⟨h.space, h.stage, hs, hcause, h.faultAddr hcause, fun addrs ha x hx hnone => ?_⟩
  obtain ⟨hc, -⟩ := h.readable addrs ha x hx hnone
  exact absurd (hcause.symm.trans hc) (by decide)

/-- Without a fault the invariant is what it says of the counts and of the reads. -/
theorem NoFault.inv {s : State} (h : NoFault s) (done : s.done = true → s.stage = stageIdle)
    (init : s.stage = stageInit → s.ptr.toNat < 2 ^ 64 ∧ s.reads = [])
    (counts : pastInit s = true ∨ s.done = true → CountsOk s)
    (reads : pastInit s = true ∨ s.done = true → ReadsCover s.reads (s.ptr.toNat - consumed s) s.ptr.toNat)
    (stageCounts : StageCounts s) (complete : s.done = true → s.n.toNat = 0) : Inv s where
  platform := h.space.platform
  memory := h.space.memory
  memoryBelow := h.space.memoryBelow
  drawn := h.space.drawn
  drawnReadable := h.space.drawnReadable
  stage := h.legal
  done := done
  cause := by simp [h.cause]
  faulted := by simp [h.cause, h.stage]
  faultAddr _ := h.faultAddr
  init := init
  counts := counts
  reads := reads
  readable addrs ha x hx hnone := absurd hnone (h.readable addrs ha x hx)
  stageCounts := stageCounts
  complete := complete
  readFault hc := absurd (h.cause.symm.trans hc) (by decide)
  rangeFault hc := absurd (h.cause.symm.trans hc) (by decide)

/-- Where no operation is past INIT and none has completed, the counts and the reads are not spoken of. -/
theorem NoFault.inv_of_not_pastInit {s : State} (h : NoFault s) (hp : pastInit s = false) (hd : s.done = false)
    (init : s.stage = stageInit → s.ptr.toNat < 2 ^ 64 ∧ s.reads = []) : Inv s := by
  have hnone : ¬(pastInit s = true ∨ s.done = true) := by simp [hp, hd]
  exact h.inv (fun hd' => by rw [hd] at hd'; cases hd') init (absurd · hnone) (absurd · hnone) (.of_not_pastInit hp)
    fun hd' => absurd (.inr hd') hnone

/-! ### Reset -/

/-- Nothing runs after reset, nothing has been read, and no fault is left. -/
theorem inv_resetOn {p : Platform} {m : Memory} (hp : p.wf) (hm : Memory.wf m)
    (hb : ∀ cell ∈ m, cell.1 < 2 ^ p.addrW) : Inv (State.resetOn p m) := by
  have hspace : SpaceOk (State.resetOn p m) :=
    ⟨hp, hm, hb, List.Pairwise.nil, fun _ hc => absurd hc List.not_mem_nil⟩
  have hclear : NoFault (State.resetOn p m) :=
    ⟨hspace, rfl, (by decide : stageIdle ≠ stageFaulted), rfl, rfl, fun _ ha => absurd ha List.not_mem_nil⟩
  exact hclear.inv_of_not_pastInit rfl rfl fun hs => absurd hs (by decide : stageIdle ≠ stageInit)

/-- Settles O12: a platform with legal parameters is all that reset asks for. -/
theorem invariantHoldsAfterReset : Obligations.InvariantHoldsAfterReset :=
  ⟨fun _ _ => inv_resetOn, inv_resetOn Platform.assumed_wf List.Pairwise.nil fun _ h => absurd h List.not_mem_nil⟩

/-- Reset aborts whatever the block is doing. -/
theorem Inv.resetBlock {s : State} (h : Inv s) : Inv (resetBlock s) :=
  (inv_resetOn h.platform h.memory h.memoryBelow).of_samePoint ⟨rfl, rfl, rfl, rfl, rfl, rfl, rfl, rfl, rfl⟩
    ⟨h.platform, h.memory, h.memoryBelow, List.Pairwise.nil, fun _ hc => absurd hc List.not_mem_nil⟩ fun _ => Iff.rfl

end Sys2Proof.Machine
end

section
/-! PROOFS. What a turn of each agent can do to a state with the invariant, and that every step keeps it (10_state.md R26,
R30; 20_memory.md R55, R56; 60_exceptions.md R160, R163). One lemma says what a sequencer step of a running operation can do,
one what a turn of the host can do; each effect then keeps the invariant. -/

namespace Sys2Proof.Machine

/-! ### The bytes a step asks for -/

/-- `r` is what the `k` bytes from `p` on give: a value where all of them are readable, else a refused one of them. -/
structure AsksFor {α : Type} (s : State) (p k : Nat) (r : ReadResult α) : Prop where
  ok : ∀ v, r = .ok v → ∀ x, p ≤ x → x < p + k → s.mem.read x ≠ none
  refused : ∀ addr, r = .refused addr → p ≤ addr ∧ addr < p + k

theorem AsksFor.both {α β γ : Type} {s : State} {p j k : Nat} {f : α → β → γ} {x : ReadResult α} {y : ReadResult β}
    (hx : AsksFor s p j x) (hy : AsksFor s (p + j) k y) : AsksFor s p (j + k) (ReadResult.both f x y) where
  ok u hu a hlo hhi := by
    obtain ⟨v, w, hv, hw, -⟩ := ReadResult.both_eq_ok.mp hu
    by_cases ha : a < p + j
    · exact hx.ok v hv a hlo ha
    · exact hy.ok w hw a (by omega) (by omega)
  refused addr hr := by
    rcases ReadResult.both_eq_refused.mp hr with ⟨hr, -⟩ | ⟨-, hr⟩
    · have := hx.refused addr hr
      omega
    · have := hy.refused addr hr
      omega

theorem asksFor_memRead (s : State) (p : Nat) : AsksFor s p 1 (memRead s p) where
  ok v hv x hlo hhi := by
    obtain rfl : x = p := by omega
    obtain ⟨-, -, byte, hb, -⟩ := memRead_eq_ok.mp hv
    simp [hb]
  refused addr hr := by
    obtain ⟨rfl, -⟩ := memRead_eq_refused.mp hr
    omega

theorem asksFor_loadLE (s : State) (p k : Nat) : AsksFor s p k (loadLE s p k) := by
  induction k with
  | zero => exact ⟨fun _ _ _ _ _ => by omega, fun _ h => nomatch h⟩
  | succ k ih => exact ih.both (asksFor_memRead s (p + k))

theorem asksFor_loadBlock (s : State) (p : Nat) : AsksFor s p 32 (loadBlock s p) :=
  ((asksFor_loadLE s p 8).both (asksFor_loadLE s (p + 8) 8)).both
    ((asksFor_loadLE s (p + 16) 8).both (asksFor_loadLE s (p + 24) 8))

/-! ### The stage to come -/

/-- Each tail stage is chosen in its own range of N only (44_tail_absorber.md R140). -/
theorem dispatch_range (n : Word) :
    (dispatch n = stageTail25 → 25 ≤ n.toNat) ∧ (dispatch n = stageTail17 → 17 ≤ n.toNat ∧ n.toNat ≤ 24) ∧
      (dispatch n = stageTail9 → 9 ≤ n.toNat ∧ n.toNat ≤ 16) ∧
      (dispatch n = stageTail1 → 1 ≤ n.toNat ∧ n.toNat ≤ 8) ∧ (dispatch n = stageFinal → n.toNat = 0) := by
  unfold dispatch
  split_ifs <;> refine ⟨?_, ?_, ?_, ?_, ?_⟩ <;> intro h <;> first | omega | exact absurd h (by decide)

/-- A stage chosen by the tail dispatch has N in its range. -/
theorem StageCounts.of_dispatch {s : State} (hs : s.stage = dispatch s.n) (hle : s.n.toNat ≤ 32)
    (h32 : s.n.toNat = 32 → s.lenL.toNat = 32) : StageCounts s := by
  obtain ⟨h25, h17, h9, h1, h0⟩ := dispatch_range s.n
  rw [← hs] at h25 h17 h9 h1 h0
  have hmem := hs ▸ dispatch_mem s.n
  exact
    { block := fun h => absurd (h ▸ hmem) (by decide)
      fold := fun h => absurd (h ▸ hmem) (by decide)
      tail25 := fun h => ⟨h25 h, hle, h32⟩
      tail17 := h17
      tail9 := h9
      tail1 := h1
      final := h0 }

theorem pastInit_of_dispatch {s : State} (hs : s.stage = dispatch s.n) : pastInit s = true := by
  have hall : ∀ code ∈ [stageTail25, stageTail17, stageTail9, stageTail1, stageFinal],
      2 ≤ code.toNat ∧ code.toNat ≤ 8 := by decide
  exact pastInit_of_stage hs (hall _ (dispatch_mem s.n))

/-- FOLD follows the last whole block (43_block_mixer.md R130, R134). -/
theorem StageCounts.of_fold {s : State} (hs : s.stage = stageFold)
    (h : s.n.toNat = s.lenL.toNat % 32 ∧ 32 < s.lenL.toNat) : StageCounts s := by
  constructor <;> first | exact fun _ => h | exact fun h' => absurd (hs.symm.trans h') (by decide)

/-- BLOCK is chosen where a whole block is left, after whole blocks (43_block_mixer.md R130). -/
theorem StageCounts.of_block {s : State} (hs : s.stage = stageBlock)
    (h : 32 ≤ s.n.toNat ∧ 32 < s.lenL.toNat ∧ consumed s % 32 = 0) : StageCounts s := by
  constructor <;> first | exact fun _ => h | exact fun h' => absurd (hs.symm.trans h') (by decide)

theorem StageCounts.of_final {s : State} (hs : s.stage = stageFinal) (h : s.n.toNat = 0) : StageCounts s := by
  constructor <;> first | exact fun _ => h | exact fun h' => absurd (hs.symm.trans h') (by decide)

/-! ### Operations past INIT -/

/-- The invariant of an operation that is past INIT and runs. -/
structure MidOperation (s : State) : Prop where
  noFault : NoFault s
  stage : pastInit s = true
  done : s.done = false
  counts : CountsOk s
  reads : ReadsCover s.reads (s.ptr.toNat - consumed s) s.ptr.toNat
  stageCounts : StageCounts s

theorem Inv.done_eq_false {s : State} (h : Inv s) (hs : s.stage ≠ stageIdle) : s.done = false := by
  by_contra hd
  exact hs (h.done (by simpa using hd))

theorem stage_ne_of_pastInit {s : State} (h : pastInit s = true) :
    s.stage ≠ stageIdle ∧ s.stage ≠ stageInit ∧ s.stage ≠ stageFaulted := by
  obtain ⟨hlo, hhi⟩ := pastInit_iff.mp h
  refine ⟨?_, ?_, ?_⟩ <;> rintro hs <;> simp [hs, stageIdle, stageInit, stageFaulted] at hlo hhi

theorem legal_of_pastInit {s : State} (h : pastInit s = true) : stageCodeReserved s.stage = false := by
  obtain ⟨-, hle⟩ := pastInit_iff.mp h
  simp only [stageCodeReserved, Bool.and_eq_false_iff, decide_eq_false_iff_not]
  omega

theorem Inv.midOperation {s : State} (h : Inv s) (hp : pastInit s = true) : MidOperation s := by
  obtain ⟨hidle, -, hfaulted⟩ := stage_ne_of_pastInit hp
  exact ⟨h.noFault hfaulted, hp, h.done_eq_false hidle, h.counts (.inl hp), h.reads (.inl hp), h.stageCounts⟩

theorem MidOperation.inv {s : State} (h : MidOperation s) : Inv s := by
  obtain ⟨-, hinit, -⟩ := stage_ne_of_pastInit h.stage
  have hd : ∀ {P : Prop}, s.done = true → P := fun hd => by rw [h.done] at hd; cases hd
  exact h.noFault.inv hd (absurd · hinit) (fun _ => h.counts) (fun _ => h.reads) h.stageCounts hd

/-- The bytes left lie in the address space, so that PTR does not wrap when it moves over them (log 15). -/
theorem MidOperation.ptr_add_n_lt {s : State} (h : MidOperation s) : s.ptr.toNat + s.n.toNat < 2 ^ 65 := by
  have hle := h.counts.left
  have hsize := h.noFault.space.size_le
  have hptr := s.ptr.isLt
  have hfits := h.counts.fits
  omega

theorem MidOperation.ptr_add {s : State} (h : MidOperation s) {k : Pointer} (hk : k.toNat ≤ s.n.toNat) :
    (s.ptr + k).toNat = s.ptr.toNat + k.toNat := by
  have hlt := h.ptr_add_n_lt
  rw [BitVec.toNat_add]
  exact Nat.mod_eq_of_lt (by omega)

/-- `t` is `s` with PTR and N moved over `k` bytes, in a stage past INIT with N in its range. -/
structure MovesOver (s t : State) (k : Nat) : Prop where
  platform : t.platform = s.platform
  mem : t.mem = s.mem
  drawn : t.drawn = s.drawn
  lenL : t.lenL = s.lenL
  done : t.done = s.done
  cause : t.cause = s.cause
  faultAddr : t.faultAddr = s.faultAddr
  ptr : t.ptr.toNat = s.ptr.toNat + k
  n : t.n.toNat + k = s.n.toNat
  stage : pastInit t = true
  stageCounts : StageCounts t

/-- A move over bytes of the input keeps the operation in order, if the reads go along with it. -/
theorem MidOperation.movesOver {s t : State} {k : Nat} (h : MidOperation s) (hm : MovesOver s t k)
    (hreads : ReadsCover t.reads (s.ptr.toNat - consumed s) (s.ptr.toNat + k))
    (hreadable : ∀ addrs ∈ t.reads, ∀ x ∈ addrs, s.mem.read x ≠ none) : MidOperation t := by
  obtain ⟨-, -, hfaulted⟩ := stage_ne_of_pastInit hm.stage
  have hleft := h.counts.left
  have hstart := h.counts.start
  have hn := hm.n
  have hcons : consumed t = consumed s + k := by
    unfold consumed
    rw [hm.lenL]
    omega
  refine ⟨⟨h.noFault.space.congr hm.platform hm.mem hm.drawn, legal_of_pastInit hm.stage, hfaulted,
      hm.cause.trans h.noFault.cause, hm.faultAddr.trans h.noFault.faultAddr, hm.mem ▸ hreadable⟩,
    hm.stage, hm.done.trans h.done, ⟨?_, ?_, ?_⟩, ?_, hm.stageCounts⟩
  · rw [hm.lenL]
    omega
  · rw [hcons, hm.ptr]
    omega
  · have hfits := h.counts.fits
    rw [hm.lenL, hm.ptr, hm.platform]
    omega
  · rw [hcons, hm.ptr, Nat.add_sub_add_right]
    exact hreads

/-! ### What a sequencer step can do -/

/-- What the sequencer can make of a running operation with the invariant: one of these, in its stage. -/
inductive StageEffect (s : State) : State → Prop
  | rangeFault (hs : s.stage = stageInit) (hr : outOfRange s = true) :
      StageEffect s (raiseFault s .rangeFault s.ptr.toNat)
  | lanes (hs : s.stage = stageInit) (hr : outOfRange s = false) : StageEffect s (initLanes s)
  | reads {t : State} (k : Nat) (hs : pastInit s = true) (hm : MovesOver s t k)
      (hreads : t.reads = s.reads ++ [List.range' s.ptr.toNat k])
      (hreadable : ∀ x, s.ptr.toNat ≤ x → x < s.ptr.toNat + k → s.mem.read x ≠ none) : StageEffect s t
  | readFault (k addr : Nat) (hs : pastInit s = true) (hk : k ≤ s.n.toNat) (lo : s.ptr.toNat ≤ addr)
      (hi : addr < s.ptr.toNat + k) : StageEffect s (raiseReadFault s s.ptr.toNat k addr)
  | fold {t : State} (hs : pastInit s = true) (hm : MovesOver s t 0) (hreads : t.reads = s.reads) : StageEffect s t
  | completes {t : State} (hs : s.stage = stageFinal) (ht : execFinal s = .next t) : StageEffect s t

/-- A reading stage moves over the bytes it asks for, or faults at one of them. -/
theorem readingStage_effect {α : Type} {s t : State} {k : Nat} {r : ReadResult α} {writes : α → State}
    (h : readingStage s s.ptr.toNat k r writes = .next t) (hs : pastInit s = true) (hk : k ≤ s.n.toNat)
    (ha : AsksFor s s.ptr.toNat k r) (hreads : ∀ v, (writes v).reads = s.reads)
    (hw : ∀ v addrs, MovesOver s (recordReads (writes v) addrs) k) : StageEffect s t := by
  rcases readingStage_next h with ⟨v, hv, rfl⟩ | ⟨addr, haddr, rfl⟩
  · exact .reads k hs (hw v _) (congrArg (· ++ _) (hreads v)) (ha.ok v hv)
  · obtain ⟨lo, hi⟩ := ha.refused addr haddr
    exact .readFault k addr hs hk lo hi

section Moves
variable {s : State} (h : MidOperation s)
include h

/-- A full tail stage moves over eight bytes, and the dispatch picks the next stage (44_tail_absorber.md R141 to R143). -/
theorem MidOperation.movesOver_advance8 (lo : 9 ≤ s.n.toNat) (hi : s.n.toNat ≤ 32) (a b : Word) (addrs : List Nat) :
    MovesOver s (recordReads { advance8 s with a := a, b := b } addrs) 8 := by
  have h8 : 8 ≤ s.n.toNat := by omega
  have hn : (s.n - 8).toNat = s.n.toNat - 8 := toNat_sub_of_le_toNat (k := 8) h8
  have hleft : (s.n - 8).toNat ≤ 24 := by omega
  exact ⟨rfl, rfl, rfl, rfl, rfl, rfl, rfl, h.ptr_add (k := 8) h8, (by omega : (s.n - 8).toNat + 8 = s.n.toNat),
    pastInit_of_dispatch rfl, .of_dispatch rfl (hleft.trans (by decide)) fun h32 => absurd (h32 ▸ hleft) (by decide)⟩

/-- After a block comes the next one, or FOLD with the remainder of the length left (43_block_mixer.md R130, R131). -/
theorem MidOperation.stageCounts_after_block (hs : s.stage = stageBlock) {t : State}
    (ht : t.stage = if 32 ≤ t.n.toNat then stageBlock else stageFold) (hn : t.n.toNat + 32 = s.n.toNat)
    (hl : t.lenL = s.lenL) : pastInit t = true ∧ StageCounts t := by
  obtain ⟨-, hlen, hmod⟩ := h.stageCounts.block hs
  have hle := h.counts.left
  unfold consumed at hmod
  split_ifs at ht with hmore
  · refine ⟨pastInit_of_stage ht, .of_block ht ⟨hmore, hl ▸ hlen, ?_⟩⟩
    rw [consumed, hl]
    omega
  · refine ⟨pastInit_of_stage ht, .of_fold ht ?_⟩
    rw [hl]
    omega

/-- BLOCK moves over 32 bytes (43_block_mixer.md R131). -/
theorem MidOperation.movesOver_mixBlock (hs : s.stage = stageBlock) (w : BlockWords) (addrs : List Nat) :
    MovesOver s (recordReads (mixBlock s w) addrs) 32 := by
  obtain ⟨lo, -⟩ := h.stageCounts.block hs
  have hn : (s.n - 32).toNat + 32 = s.n.toNat := by
    rw [toNat_sub_of_le_toNat (k := 32) lo]
    exact Nat.sub_add_cancel lo
  obtain ⟨hp, hc⟩ := h.stageCounts_after_block hs (t := recordReads (mixBlock s w) addrs) rfl hn rfl
  exact ⟨rfl, rfl, rfl, rfl, rfl, rfl, rfl, h.ptr_add (k := 32) lo, hn, hp, hc⟩

/-- TAIL1 moves over all that is left (44_tail_absorber.md R144). -/
theorem MidOperation.movesOver_tail1 (a : Word) (addrs : List Nat) :
    MovesOver s
      (recordReads { s with a := a, ptr := s.ptr + s.n.setWidth 65, n := 0, stage := stageFinal } addrs)
      s.n.toNat := by
  have hwidth : (s.n.setWidth 65).toNat = s.n.toNat := BitVec.toNat_setWidth_of_le (by decide)
  have hptr : (s.ptr + s.n.setWidth 65).toNat = s.ptr.toNat + s.n.toNat := by rw [h.ptr_add hwidth.le, hwidth]
  exact ⟨rfl, rfl, rfl, rfl, rfl, rfl, rfl, hptr, Nat.zero_add _, rfl, .of_final rfl rfl⟩

/-- FOLD moves over nothing (43_block_mixer.md R133). -/
theorem MidOperation.movesOver_fold (hs : s.stage = stageFold) {t : State} (ht : execFold s = .next t) :
    MovesOver s t 0 := by
  obtain ⟨hn, -⟩ := h.stageCounts.fold hs
  have hlt : s.n.toNat < 32 := hn ▸ Nat.mod_lt _ (by decide)
  cases ht
  exact ⟨rfl, rfl, rfl, rfl, rfl, rfl, rfl, rfl, rfl, pastInit_of_dispatch rfl,
    .of_dispatch rfl hlt.le fun h32 => absurd h32 hlt.ne⟩

end Moves

/-- BUSY is set in the stages of R30 only. -/
theorem stage_mem_of_busy {s : State} (h : busy s = true) :
    s.stage ∈ [stageInit, stageBlock, stageFold, stageTail25, stageTail17, stageTail9, stageTail1, stageFinal] := by
  have hall : ∀ code : BitVec 4, 1 ≤ code.toNat ∧ code.toNat ≤ 8 →
      code ∈ [stageInit, stageBlock, stageFold, stageTail25, stageTail17, stageTail9, stageTail1, stageFinal] := by decide
  exact hall _ (busy_iff.mp h)

/-- In a busy state with the invariant an operation runs, with N in the range of its stage. -/
theorem Inv.running {s : State} (h : Inv s) (hb : busy s = true) : ∃ r, Running r s := by
  have hc := h.stageCounts
  have hmem := stage_mem_of_busy hb
  simp only [List.mem_cons, List.not_mem_nil, or_false] at hmem
  rcases hmem with hs | hs | hs | hs | hs | hs | hs | hs
  · exact ⟨_, .init hs⟩
  · exact ⟨_, .block hs (hc.block hs).1⟩
  · exact ⟨_, .fold hs ((hc.fold hs).1 ▸ Nat.mod_lt _ (by decide))⟩
  · exact ⟨_, .tail25 hs (hc.tail25 hs).1 (hc.tail25 hs).2.1⟩
  · exact ⟨_, .tail17 hs (hc.tail17 hs).1 (hc.tail17 hs).2⟩
  · exact ⟨_, .tail9 hs (hc.tail9 hs).1 (hc.tail9 hs).2⟩
  · exact ⟨_, .tail1 hs (hc.tail1 hs).1 (hc.tail1 hs).2⟩
  · exact ⟨_, .final hs (hc.final hs)⟩

/-- The sequencer's step of a running operation with the invariant has one of the effects above. -/
theorem sequencerTurn_effect {r : Nat} {s t : State} (hinv : Inv s) (hr : Running r s) (h : sequencerTurn s = .next t) :
    StageEffect s t := by
  have hmid : s.stage ≠ stageInit → pastInit s = true ∧ MidOperation s := fun hne => by
    have hp : pastInit s = true := by
      obtain ⟨lo, hi⟩ := busy_iff.mp hr.busy
      have hne' : s.stage.toNat ≠ 1 := fun he => hne (BitVec.eq_of_toNat_eq he)
      exact pastInit_iff.mpr ⟨by omega, hi⟩
    exact ⟨hp, hinv.midOperation hp⟩
  cases hr with
  | init hs =>
    rw [sequencerTurn_of_stage hs rfl] at h
    simp only [exec, execInit] at h
    split_ifs at h with hrange <;> cases h
    · exact .rangeFault hs hrange
    · exact .lanes hs (by simpa using hrange)
  | block hs lo =>
    rw [sequencerTurn_of_stage hs rfl] at h
    obtain ⟨hp, hm⟩ := hmid (hs ▸ by decide)
    exact readingStage_effect h hp lo (asksFor_loadBlock s _) (fun _ => rfl) (hm.movesOver_mixBlock hs)
  | fold hs =>
    rw [sequencerTurn_of_stage hs rfl] at h
    obtain ⟨hp, hm⟩ := hmid (hs ▸ by decide)
    exact .fold hp (hm.movesOver_fold hs h) (by cases h; rfl)
  | tail25 hs lo hi | tail17 hs lo hi | tail9 hs lo hi =>
    rw [sequencerTurn_of_stage hs rfl] at h
    obtain ⟨hp, hm⟩ := hmid (hs ▸ by decide)
    exact readingStage_effect h hp (by omega) (asksFor_loadLE s _ 8) (fun _ => rfl)
      fun w addrs => hm.movesOver_advance8 (by omega) (by omega) _ _ addrs
  | tail1 hs lo hi =>
    rw [sequencerTurn_of_stage hs rfl] at h
    obtain ⟨hp, hm⟩ := hmid (hs ▸ by decide)
    simp only [exec, execTail1, tail64, lo, hi, and_self, if_true] at h
    exact readingStage_effect h hp le_rfl (asksFor_loadLE s _ _) (fun _ => rfl) fun w => hm.movesOver_tail1 _
  | final hs =>
    rw [sequencerTurn_of_stage hs rfl] at h
    exact .completes hs h

/-! ### Each effect keeps the invariant -/

/-- The invariant of a state that the fault `c` has stopped. -/
theorem SpaceOk.inv_of_faulted {t : State} (h : SpaceOk t) (c : FaultCause) (hs : t.stage = stageFaulted)
    (hd : t.done = false) (hc : t.cause = c.code)
    (readable : ∀ addrs ∈ t.reads, ∀ x ∈ addrs, t.mem.read x = none → c = .readFault ∧ x = t.faultAddr.toNat)
    (readFault : c = .readFault →
      CountsOk t ∧ t.ptr.toNat ≤ t.faultAddr.toNat ∧ t.faultAddr.toNat < t.ptr.toNat + t.n.toNat ∧
        ∃ before last, t.reads = before ++ [last] ∧
          ReadsCover before (t.ptr.toNat - consumed t) t.ptr.toNat ∧ FaultedStep t last)
    (rangeFault : c = .rangeFault → t.reads = [] ∧ t.faultAddr.toNat = t.ptr.toNat ∧ 0 < t.lenL.toNat) : Inv t := by
  have hcode : ∀ c' : FaultCause, t.cause = c'.code → c = c' := fun c' h' => by
    cases c <;> cases c' <;> first | rfl | exact absurd (hc.symm.trans h') (by decide)
  have hne : t.cause ≠ 0 := by rw [hc]; cases c <;> decide
  have hp : pastInit t = false := by simp [pastInit, hs, stageFaulted]
  have hnone : ¬(pastInit t = true ∨ t.done = true) := by simp [hp, hd]
  exact
    { platform := h.platform
      memory := h.memory
      memoryBelow := h.memoryBelow
      drawn := h.drawn
      drawnReadable := h.drawnReadable
      stage := hs ▸ by decide
      done := fun hd' => absurd (.inr hd') hnone
      cause := by rw [hc]; cases c <;> decide
      faulted := iff_of_true hs hne
      faultAddr := (absurd · hne)
      init := fun hi => absurd (hs.symm.trans hi) (by decide)
      counts := (absurd · hnone)
      reads := (absurd · hnone)
      readable := fun addrs ha x hx hno => by
        obtain ⟨rfl, hx'⟩ := readable addrs ha x hx hno
        exact ⟨hc, hx'⟩
      stageCounts := .of_not_pastInit hp
      complete := fun hd' => absurd (.inr hd') hnone
      readFault := fun h' => readFault (hcode _ h')
      rangeFault := fun h' => rangeFault (hcode _ h') }

/-- RangeFault: PTR is the address reported, and nothing has been read (60_exceptions.md R162). -/
theorem Inv.rangeFaulted {s : State} (h : Inv s) (hs : s.stage = stageInit) (hr : outOfRange s = true) :
    Inv (raiseFault s .rangeFault s.ptr.toNat) := by
  obtain ⟨hptr, hreads⟩ := h.init hs
  have haddr : (BitVec.ofNat 64 s.ptr.toNat).toNat = s.ptr.toNat := by simpa using hptr
  have hlen : 0 < s.lenL.toNat := by
    simp only [outOfRange, Bool.and_eq_true, decide_eq_true_eq] at hr
    exact hr.1
  refine SpaceOk.inv_of_faulted (h.space.congr rfl rfl rfl) .rangeFault rfl (h.done_eq_false (hs ▸ by decide)) rfl ?_
    (fun hc => nomatch hc) fun _ => ⟨hreads, haddr, hlen⟩
  intro addrs ha
  rw [raiseFault_reads, hreads] at ha
  exact absurd ha List.not_mem_nil

theorem consumed_initLanes (s : State) : consumed (initLanes s) = 0 := Nat.sub_self _

/-- INIT without a fault goes on to BLOCK, or to the tail of a short input (42_host_and_init.md R121). -/
theorem initLanes_stageCounts (s : State) : pastInit (initLanes s) = true ∧ StageCounts (initLanes s) := by
  by_cases hlen : 32 < s.lenL.toNat
  · have hb : (initLanes s).stage = stageBlock := if_pos hlen
    exact ⟨pastInit_of_stage hb, .of_block hb ⟨hlen.le, hlen, by rw [consumed_initLanes]⟩⟩
  · have hd : (initLanes s).stage = dispatch s.lenL := if_neg hlen
    exact ⟨pastInit_of_dispatch hd, .of_dispatch hd (Nat.not_lt.mp hlen) id⟩

/-- INIT without a fault begins with nothing read and the whole input left (42_host_and_init.md R121). -/
theorem Inv.initLanes {s : State} (h : Inv s) (hs : s.stage = stageInit) (hr : outOfRange s = false) :
    Inv (initLanes s) := by
  obtain ⟨-, hreads⟩ := h.init hs
  have hn := h.noFault (hs ▸ by decide)
  have hcons := consumed_initLanes s
  have hfits : 0 < s.lenL.toNat → s.ptr.toNat + s.lenL.toNat ≤ 2 ^ s.platform.addrW := by
    simpa [outOfRange] using hr
  obtain ⟨hp, hc⟩ := initLanes_stageCounts s
  obtain ⟨-, -, hfaulted⟩ := stage_ne_of_pastInit hp
  have hcover : ReadsCover s.reads (s.ptr.toNat - 0) s.ptr.toNat := by
    rw [hreads]
    exact .nil _
  exact MidOperation.inv
    { noFault := ⟨h.space.congr rfl rfl rfl, legal_of_pastInit hp, hfaulted, hn.cause, hn.faultAddr, hn.readable⟩
      stage := hp
      done := h.done_eq_false (hs ▸ by decide)
      counts := ⟨le_rfl, hcons ▸ Nat.zero_le _, hfits⟩
      reads := hcons ▸ hcover
      stageCounts := hc }

/-- A faulting step has read nothing unreadable but the faulting byte (20_memory.md R51, R55). -/
theorem eq_of_mem_faultedReads {s : State} {p k addr x : Nat} (hx : x ∈ faultedReads s p k addr)
    (hnone : s.mem.read x = none) : x = addr := by
  obtain ⟨-, rfl | ⟨⟨byte, hb⟩, -⟩⟩ := mem_faultedReads.mp hx
  · rfl
  · obtain ⟨-, -, old, hold, -⟩ := memRead_eq_ok.mp hb
    cases hnone.symm.trans hold

/-- The address of a byte of the input fits into FAULT_ADDR (log 15). -/
theorem MidOperation.toNat_ofNat_addr {s : State} (h : MidOperation s) {addr : Nat} (lo : s.ptr.toNat ≤ addr)
    (hi : addr < s.ptr.toNat + s.n.toNat) : (BitVec.ofNat 64 addr).toNat = addr := by
  have hfits := h.counts.fits
  have hle := h.counts.left
  have hsize := h.noFault.space.size_le
  rw [BitVec.toNat_ofNat]
  exact Nat.mod_eq_of_lt (by omega)

/-- A ReadFault leaves PTR and N as the stage found them, and its address is among the bytes left (60_exceptions.md R163,
R164). -/
theorem MidOperation.readFaulted {s : State} (h : MidOperation s) {k addr : Nat} (hk : k ≤ s.n.toNat)
    (lo : s.ptr.toNat ≤ addr) (hi : addr < s.ptr.toNat + k) : Inv (raiseReadFault s s.ptr.toNat k addr) := by
  have hin : addr < s.ptr.toNat + s.n.toNat := by omega
  have haddr := h.toNat_ofNat_addr lo hin
  obtain ⟨hleft, hstart, hfits⟩ := h.counts
  have hstep : FaultedStep (raiseReadFault s s.ptr.toNat k addr) (faultedReads s s.ptr.toNat k addr) := by
    refine ⟨faultedReads_nodup .., mem_faultedReads.mpr ⟨?_, .inl haddr⟩, fun x hx => ?_⟩
    · exact ⟨lo.trans haddr.ge, haddr.le.trans_lt hi⟩
    · obtain ⟨⟨hlo, hhi⟩, -⟩ := mem_faultedReads.mp hx
      exact ⟨hlo, hhi.trans_le (Nat.add_le_add_left hk _)⟩
  refine SpaceOk.inv_of_faulted (h.noFault.space.congr rfl rfl rfl) .readFault rfl h.done rfl ?_
    (fun _ => ⟨⟨hleft, hstart, hfits⟩, lo.trans haddr.ge, haddr.le.trans_lt hin, _, _, rfl, h.reads, hstep⟩)
    fun hc => nomatch hc
  intro addrs ha x hx hnone
  rcases List.mem_append.mp ha with ha | ha
  · exact absurd hnone (h.noFault.readable addrs ha x hx)
  · obtain rfl := List.mem_singleton.mp ha
    exact ⟨rfl, (eq_of_mem_faultedReads hx hnone).trans haddr.symm⟩

/-- FINAL completes an operation that has read its whole input (45_finalizer.md R151). -/
theorem MidOperation.completed {s t : State} (h : MidOperation s) (hs : s.stage = stageFinal)
    (ht : execFinal s = .next t) : Inv t := by
  have hn := h.noFault
  have hzero := h.stageCounts.final hs
  obtain ⟨hleft, hstart, hfits⟩ := h.counts
  have hreads := h.reads
  cases ht
  exact NoFault.inv
    ⟨hn.space.congr rfl rfl rfl, rfl, (by decide : stageIdle ≠ stageFaulted), hn.cause, hn.faultAddr, hn.readable⟩
    (fun _ => rfl) (fun hi => absurd hi (by decide : stageIdle ≠ stageInit)) (fun _ => ⟨hleft, hstart, hfits⟩)
    (fun _ => hreads) (.of_not_pastInit rfl) fun _ => hzero

/-- Every effect of a sequencer step keeps the invariant. -/
theorem StageEffect.inv {s t : State} (he : StageEffect s t) (h : Inv s) : Inv t := by
  cases he with
  | rangeFault hs hr => exact h.rangeFaulted hs hr
  | lanes hs hr => exact h.initLanes hs hr
  | reads k hs hm hreads hreadable =>
    have hmid := h.midOperation hs
    refine (hmid.movesOver hm ?_ fun addrs ha x hx => ?_).inv
    · rw [hreads]
      exact hmid.reads.snoc k (Nat.sub_le _ _)
    · rw [hreads] at ha
      rcases List.mem_append.mp ha with ha | ha
      · exact hmid.noFault.readable addrs ha x hx
      · obtain rfl := List.mem_singleton.mp ha
        obtain ⟨lo, hi⟩ := List.mem_range'_1.mp hx
        exact hreadable x lo hi
  | readFault k addr hs hk lo hi => exact (h.midOperation hs).readFaulted hk lo hi
  | fold hs hm hreads =>
    have hmid := h.midOperation hs
    exact (hmid.movesOver hm (hreads ▸ hmid.reads) (hreads ▸ hmid.noFault.readable)).inv
  | completes hs ht => exact (h.midOperation (pastInit_of_stage hs)).completed hs ht

/-- IDLE and FAULTED have no sequencer step (30_encoding.md R71). -/
theorem sequencerTurn_of_not_busy {s t : State} (hb : busy s = false) (h : sequencerTurn s = .next t) : t = s := by
  obtain ⟨i, hi, he⟩ := sequencerTurn_next h
  have hrest : ∀ code : BitVec 4, ¬(1 ≤ code.toNat ∧ code.toNat ≤ 8) → stageCodeReserved code = false →
      code = stageIdle ∨ code = stageFaulted := by decide
  have hnot : ¬(1 ≤ s.stage.toNat ∧ s.stage.toNat ≤ 8) := by
    rw [← busy_iff, hb]
    decide
  rcases hrest _ hnot (decodeStage_ok_legal hi) with hs | hs
  all_goals
    rw [sequencerTurn_of_stage hs rfl] at h
    cases h
    rfl

theorem Inv.sequencerTurn {s t : State} (h : Inv s) (ht : sequencerTurn s = .next t) : Inv t := by
  by_cases hb : busy s = true
  · obtain ⟨r, hr⟩ := h.running hb
    exact (sequencerTurn_effect h hr ht).inv h
  · rw [sequencerTurn_of_not_busy (by simpa using hb) ht]
    exact h

/-! ### The host's turn -/

/-- A host access starts an operation in IDLE, or changes nothing but the argument registers and the read data. -/
theorem exec_hostAccess_cases {i : Instr} {s t : State} (hi : isHostAccess i = true) (h : exec i s = .next t) :
    (s.stage = stageIdle ∧ t = acceptStart s) ∨ ∃ da l sd rd, t = withHost s da l sd rd s.program := by
  cases i with
  | start data =>
    simp only [exec, execStart] at h
    split_ifs at h with hacc <;> cases h
    · simp only [Bool.and_eq_true, beq_iff_eq] at hacc
      exact .inl ⟨hacc.2, rfl⟩
    · exact .inr ⟨_, _, _, _, rfl⟩
  | idle | init | block | fold | tail25 | tail17 | tail9 | tail1 | final | faulted => cases hi
  | wrDataAddr | wrLen | wrSeed | wrStatusIgnored | wrDigestIgnored | wrCauseIgnored | wrFaultAddrIgnored | rdCtrl
  | rdStatus | rdDataAddr | rdLen | rdSeed | rdDigest | rdCause | rdFaultAddr =>
    cases h
    exact .inr ⟨_, _, _, _, rfl⟩

/-- The host's turn starts an operation in IDLE with its line taken off, or changes the host's side of the state only. -/
theorem hostTurn_cases {s t : State} (h : hostTurn s = .next t) :
    (s.stage = stageIdle ∧ ∃ rest, t = acceptStart { s with program := rest }) ∨
      ∃ da l sd rd lines, t = withHost s da l sd rd lines := by
  rcases hostTurn_next h with ⟨-, rfl⟩ | ⟨rest, -, rfl⟩ | ⟨a, rest, i, -, hi, he⟩
  · exact .inr ⟨_, _, _, _, _, rfl⟩
  · split_ifs <;> exact .inr ⟨_, _, _, _, _, rfl⟩
  · rcases exec_hostAccess_cases (isHostAccess_of_decodeAccess hi) he with ⟨hs, rfl⟩ | ⟨da, l, sd, rd, rfl⟩
    · exact .inl ⟨hs, rest, rfl⟩
    · exact .inr ⟨da, l, sd, rd, rest, rfl⟩

/-- An accepted START: nothing read yet, no draw, no fault (42_host_and_init.md R120). -/
theorem Inv.acceptStart {s : State} (h : Inv s) (hs : s.stage = stageIdle) : Inv (acceptStart s) := by
  have hn := h.noFault (hs ▸ by decide)
  have hspace : SpaceOk (Machine.acceptStart s) :=
    ⟨h.platform, h.memory, h.memoryBelow, List.Pairwise.nil, fun _ hc => absurd hc List.not_mem_nil⟩
  have hptr : (s.dataAddr.setWidth 65).toNat = s.dataAddr.toNat := BitVec.toNat_setWidth_of_le (by decide)
  exact NoFault.inv_of_not_pastInit
    ⟨hspace, rfl, (by decide : stageInit ≠ stageFaulted), hn.cause, hn.faultAddr,
      fun _ ha => absurd ha List.not_mem_nil⟩
    rfl rfl fun _ => ⟨hptr ▸ s.dataAddr.isLt, rfl⟩

theorem Inv.hostTurn {s t : State} (h : Inv s) (ht : hostTurn s = .next t) : Inv t := by
  rcases hostTurn_cases ht with ⟨hs, rest, rfl⟩ | ⟨da, l, sd, rd, lines, rfl⟩
  · exact Inv.acceptStart (h.withHost s.dataAddr s.len s.seed s.readData rest) hs
  · exact h.withHost da l sd rd lines

/-! ### Every turn and every step -/

theorem Inv.takeTurn {turn : Turn} {s t : State} (h : Inv s) (ht : takeTurn turn s = .next t) : Inv t := by
  rcases takeTurn_next ht with ⟨-, rfl⟩ | ⟨-, ⟨-, hseq⟩ | ⟨-, hhost⟩ | ⟨addr, byte, -, rfl⟩⟩
  · exact h.resetBlock
  · exact h.sequencerTurn hseq
  · exact h.hostTurn hhost
  · exact h.storeByte addr byte

/-- Settles O13: the invariant holds whatever the schedule, and each turn keeps it. -/
theorem everyStepKeepsTheInvariant : Obligations.EveryStepKeepsTheInvariant := by
  intro s t h ht
  rw [step, nextTurn_snd] at ht
  exact (h.withSchedule s.schedule.tail).takeTurn ht

end Sys2Proof.Machine
end

section
/-! PROOFS. The bits of STATUS (10_state.md R30), and which instructions write the lanes (R22, R23) and the result
registers (R32). -/

namespace Sys2Proof.Machine

/-! ### STATUS -/

/-- STATUS bit by bit (10_state.md R30). -/
theorem getLsbD_status (s : State) (j : Nat) :
    (status s).getLsbD j =
      if j = 0 then busy s else if j = 1 then s.done else if j = 2 then faultFlag s
      else if j < 8 then false else if j < 12 then s.stage.getLsbD (j - 8) else false := by
  simp only [status, BitVec.getLsbD_append]
  match j with
  | 0 | 1 | 2 => simp
  | j + 3 =>
    have hj : j + 3 - 8 = j - 5 := by omega
    by_cases h5 : j < 5
    · simp [h5]
    · by_cases h9 : j - 5 < 4
      · simp [h5, h9, hj, Nat.not_lt.mp h5, show j + 3 < 12 by omega]
      · simp [h5, h9, show ¬j + 3 < 12 by omega]

/-- In a state with the invariant an operation that runs is not complete, and neither has faulted. -/
theorem Inv.flags_exclusive {s : State} (h : Inv s) :
    ¬(busy s = true ∧ s.done = true) ∧ ¬(busy s = true ∧ faultFlag s = true) ∧
      ¬(s.done = true ∧ faultFlag s = true) := by
  refine ⟨fun ⟨hb, hd⟩ => ?_, fun ⟨hb, hf⟩ => ?_, fun ⟨hd, hf⟩ => ?_⟩
  · exact stage_ne_idle_of_busy hb (h.done hd)
  · have hs : s.stage = stageFaulted := by simpa [faultFlag] using hf
    simp [busy, hs, stageFaulted] at hb
  · have hs : s.stage = stageFaulted := by simpa [faultFlag] using hf
    exact absurd (hs.symm.trans (h.done hd)) (by decide)

/-- Settles O27: the bits of STATUS are BUSY, DONE, FAULT and STAGE, and the invariant keeps the three flags apart. -/
theorem statusHasItsFields : Obligations.StatusHasItsFields := by
  intro s
  have hbusy : (status s).getLsbD 0 = busy s := getLsbD_status s 0
  have hdone : (status s).getLsbD 1 = s.done := getLsbD_status s 1
  have hfault : (status s).getLsbD 2 = faultFlag s := getLsbD_status s 2
  refine ⟨⟨?_, hdone, ?_, fun j hj => ?_, fun j hj => ?_⟩, fun _ => rfl, fun hinv => ?_⟩
  · rw [hbusy, busy, Bool.decide_and]
  · rw [hfault, faultFlag, beq_eq_decide]
    rfl
  · rw [getLsbD_status, if_neg (by omega), if_neg (by omega), if_neg (by omega), if_neg (by omega),
      if_pos (by omega), Nat.add_sub_cancel_left]
  · rw [getLsbD_status, if_neg (by omega), if_neg (by omega), if_neg (by omega)]
    split_ifs
    · rfl
    · omega
    · rfl
  · rw [hbusy, hdone, hfault]
    exact hinv.flags_exclusive

/-! ### The lanes -/

/-- A reading stage leaves a part of the state that neither its writes nor a ReadFault change. -/
theorem readingStage_keeps {α β : Type} {s t : State} {p k : Nat} {r : ReadResult α} {writes : α → State}
    (f : State → β) (h : readingStage s p k r writes = .next t) (hw : ∀ v addrs, f (recordReads (writes v) addrs) = f s)
    (hf : ∀ addr, f (raiseReadFault s p k addr) = f s) : f t = f s := by
  rcases readingStage_next h with ⟨v, -, rfl⟩ | ⟨addr, -, rfl⟩
  · exact hw v _
  · exact hf addr

/-- A reading stage that does not write C and D keeps them. -/
theorem readingStage_keeps_cd {α : Type} {s t : State} {p k : Nat} {r : ReadResult α} {writes : α → State}
    (h : readingStage s p k r writes = .next t) (hw : ∀ v, (writes v).c = s.c ∧ (writes v).d = s.d) :
    t.c = s.c ∧ t.d = s.d :=
  ⟨readingStage_keeps State.c h (fun v _ => (hw v).1) fun _ => rfl,
    readingStage_keeps State.d h (fun v _ => (hw v).2) fun _ => rfl⟩

/-- TAIL1 with a count in the domain of tail64 is a reading stage (40_byte_loader.md R104). -/
theorem execTail1_next {s t : State} (h : execTail1 s = .next t) :
    readingStage s s.ptr.toNat s.n.toNat (loadLE s s.ptr.toNat s.n.toNat)
      (fun w => { s with
        a := s.a + mux64 w s.platform.rom.p1
        ptr := s.ptr + s.n.setWidth 65
        n := 0
        stage := stageFinal }) = .next t := by
  unfold execTail1 tail64 at h
  split_ifs at h
  exact h

/-- Settles O39: the only writes of a lane are those of its own stages, and a ReadFault writes none. -/
theorem lanesAreWrittenByTheirStages : Obligations.LanesAreWrittenByTheirStages := by
  intro i s t h
  cases i with
  | init | block => exact ⟨absurd (by decide), absurd (by decide), absurd (by decide)⟩
  | fold =>
    cases h
    exact ⟨absurd (by decide), absurd (by decide), fun _ => ⟨rfl, rfl⟩⟩
  | tail25 | tail9 =>
    exact ⟨fun _ => readingStage_keeps State.a h (fun _ _ => rfl) fun _ => rfl, absurd (by decide),
      fun _ => readingStage_keeps_cd h fun _ => ⟨rfl, rfl⟩⟩
  | tail17 =>
    exact ⟨absurd (by decide), fun _ => readingStage_keeps State.b h (fun _ _ => rfl) fun _ => rfl,
      fun _ => readingStage_keeps_cd h fun _ => ⟨rfl, rfl⟩⟩
  | tail1 =>
    replace h := execTail1_next h
    exact ⟨absurd (by decide), fun _ => readingStage_keeps State.b h (fun _ _ => rfl) fun _ => rfl,
      fun _ => readingStage_keeps_cd h fun _ => ⟨rfl, rfl⟩⟩
  | start data =>
    simp only [exec, execStart] at h
    split_ifs at h <;> cases h <;> exact ⟨fun _ => rfl, fun _ => rfl, fun _ => ⟨rfl, rfl⟩⟩
  | idle | final | faulted | wrDataAddr | wrLen | wrSeed | wrStatusIgnored | wrDigestIgnored | wrCauseIgnored
  | wrFaultAddrIgnored | rdCtrl | rdStatus | rdDataAddr | rdLen | rdSeed | rdDigest | rdCause | rdFaultAddr =>
    cases h
    exact ⟨fun _ => rfl, fun _ => rfl, fun _ => ⟨rfl, rfl⟩⟩

/-! ### The result registers -/

/-- The result registers of `t` are those of `s`. -/
structure SameResults (s t : State) : Prop where
  digest : t.digest = s.digest
  cause : t.cause = s.cause
  faultAddr : t.faultAddr = s.faultAddr

/-- A reading stage leaves the result registers, or takes a ReadFault, which leaves DIGEST (60_exceptions.md R163). -/
theorem readingStage_results {α : Type} {s t : State} {p k : Nat} {r : ReadResult α} {writes : α → State}
    (h : readingStage s p k r writes = .next t) (hw : ∀ v, SameResults s (writes v)) :
    SameResults s t ∨ (t.stage = stageFaulted ∧ t.digest = s.digest) := by
  rcases readingStage_next h with ⟨v, -, rfl⟩ | ⟨addr, -, rfl⟩
  · obtain ⟨hd, hc, hf⟩ := hw v
    exact .inl ⟨hd, hc, hf⟩
  · exact .inr ⟨rfl, rfl⟩

/-- An instruction leaves the result registers, or is FINAL and writes DIGEST, or takes a fault (10_state.md R32). -/
theorem exec_results {i : Instr} {s t : State} (h : exec i s = .next t) :
    SameResults s t ∨ (i = .final ∧ t.done = true ∧ t.cause = s.cause ∧ t.faultAddr = s.faultAddr) ∨
      (t.stage = stageFaulted ∧ t.digest = s.digest) := by
  cases i with
  | init =>
    simp only [exec, execInit] at h
    split_ifs at h <;> cases h
    · exact .inr (.inr ⟨rfl, rfl⟩)
    · exact .inl ⟨rfl, rfl, rfl⟩
  | block | tail25 | tail17 | tail9 => exact (readingStage_results h fun _ => ⟨rfl, rfl, rfl⟩).imp_right .inr
  | tail1 => exact (readingStage_results (execTail1_next h) fun _ => ⟨rfl, rfl, rfl⟩).imp_right .inr
  | final =>
    cases h
    exact .inr (.inl ⟨rfl, rfl, rfl, rfl⟩)
  | start data =>
    simp only [exec, execStart] at h
    split_ifs at h <;> cases h <;> exact .inl ⟨rfl, rfl, rfl⟩
  | idle | fold | faulted | wrDataAddr | wrLen | wrSeed | wrStatusIgnored | wrDigestIgnored | wrCauseIgnored
  | wrFaultAddrIgnored | rdCtrl | rdStatus | rdDataAddr | rdLen | rdSeed | rdDigest | rdCause | rdFaultAddr =>
    cases h
    exact .inl ⟨rfl, rfl, rfl⟩

theorem hostTurn_sameResults {s t : State} (h : hostTurn s = .next t) : SameResults s t := by
  rcases hostTurn_cases h with ⟨-, rest, rfl⟩ | ⟨da, l, sd, rd, lines, rfl⟩ <;> exact ⟨rfl, rfl, rfl⟩

/-- A turn but reset leaves the result registers, or is the sequencer's and performs FINAL or takes a fault. -/
theorem takeTurn_results {turn : Turn} {s t : State} (h : takeTurn turn s = .next t) (hr : turn ≠ .reset) :
    SameResults s t ∨ (turn = .sequencer ∧
      ((s.stage = stageFinal ∧ t.done = true ∧ t.cause = s.cause ∧ t.faultAddr = s.faultAddr) ∨
        (s.stage ≠ stageFaulted ∧ t.stage = stageFaulted ∧ t.digest = s.digest))) := by
  rcases takeTurn_next h with ⟨hreset, -⟩ | ⟨-, ⟨rfl, hseq⟩ | ⟨-, hhost⟩ | ⟨addr, byte, -, rfl⟩⟩
  · exact absurd hreset hr
  · by_cases hs : s.stage = stageFaulted
    · obtain rfl := sequencerTurn_of_not_busy (by simp [busy, hs, stageFaulted]) hseq
      exact .inl ⟨rfl, rfl, rfl⟩
    · obtain ⟨i, hi, he⟩ := sequencerTurn_next hseq
      rcases exec_results he with hsame | ⟨rfl, hdone⟩ | hfault
      · exact .inl hsame
      · have hcode : stageFinal = s.stage := Encoded.stage.inj (decodeStage_eq_ok hi)
        exact .inr ⟨rfl, .inl ⟨hcode.symm, hdone⟩⟩
      · exact .inr ⟨rfl, .inr ⟨hs, hfault⟩⟩
  · exact .inl (hostTurn_sameResults hhost)
  · exact .inl ⟨storeByte_digest s addr byte, storeByte_cause s addr byte, storeByte_faultAddr s addr byte⟩

/-- Settles O40: FINAL and the faults are the only turns but reset that write a result register. -/
theorem resultRegistersChangeOnlyAtTheirEvents : Obligations.ResultRegistersChangeOnlyAtTheirEvents := by
  intro s t h hr
  rw [step, nextTurn_snd] at h
  rcases takeTurn_results h hr with ⟨hd, hc, hf⟩ | ⟨hturn, ⟨hs, hdone, hc, hf⟩ | ⟨hs, ht, hd⟩⟩
  · exact ⟨fun hne => absurd hd hne, fun hne => absurd ⟨hc, hf⟩ (not_and_or.mpr hne)⟩
  · exact ⟨fun _ => ⟨hturn, hs, hdone⟩, fun hne => absurd ⟨hc, hf⟩ (not_and_or.mpr hne)⟩
  · exact ⟨fun hne => absurd hd hne, fun _ => ⟨hturn, hs, ht⟩⟩

end Sys2Proof.Machine
end

section
/-! PROOFS. Along every run without a reset the block stays on the input of its operation until another one is accepted
(10_state.md R26, 42_host_and_init.md R120, R125). -/

namespace Sys2Proof.Machine

/-! ### Steps without a reset -/

theorem nextTurn_ne_reset {s : State} (h : .reset ∉ s.schedule) : (nextTurn s).1 ≠ .reset := by
  rcases nextTurn_cases s with ⟨-, hn⟩ | ⟨turn, rest, hs, hn⟩ <;> rw [hn]
  · rcases defaultTurn_cases s with ⟨hd, -⟩ | ⟨hd, -⟩ <;> simp [hd]
  · rintro rfl
    exact h (hs ▸ List.mem_cons_self ..)

/-- A turn without a reset is the sequencer's, or leaves the operation where it is, or accepts another one in IDLE. -/
theorem takeTurn_cases {turn : Turn} {s t : State} (h : takeTurn turn s = .next t) (hr : turn ≠ .reset) :
    (turn = .sequencer ∧ sequencerTurn s = .next t) ∨
      (turn ≠ .sequencer ∧ (SamePoint s t ∨ (s.stage = stageIdle ∧ s.program ≠ [] ∧ t.stage = stageInit))) := by
  rcases takeTurn_next h with ⟨hreset, -⟩ | ⟨-, hseq | ⟨rfl, ht⟩ | ⟨addr, byte, rfl, rfl⟩⟩
  · exact absurd hreset hr
  · exact .inl hseq
  · refine .inr ⟨nofun, ?_⟩
    by_cases hprog : s.program = []
    · rw [hostTurn_of_nil hprog] at ht
      cases ht
      exact .inl ⟨rfl, rfl, rfl, rfl, rfl, rfl, rfl, rfl, rfl⟩
    · rcases hostTurn_cases ht with ⟨hs, rest, rfl⟩ | ⟨da, l, sd, rd, lines, rfl⟩
      · exact .inr ⟨hs, hprog, rfl⟩
      · exact .inl (samePoint_withHost s da l sd rd lines)
  · exact .inr ⟨nofun, .inl (samePoint_storeByte s addr byte)⟩

theorem step_cases {s t : State} (h : step s = .next t) (hr : .reset ∉ s.schedule) :
    ((nextTurn s).1 = .sequencer ∧ sequencerTurn { s with schedule := s.schedule.tail } = .next t) ∨
      ((nextTurn s).1 ≠ .sequencer ∧
        (SamePoint s t ∨ (s.stage = stageIdle ∧ s.program ≠ [] ∧ t.stage = stageInit))) := by
  rw [step, nextTurn_snd] at h
  exact (takeTurn_cases h (nextTurn_ne_reset hr)).imp_right
    (And.imp_right (Or.imp_left (samePoint_withSchedule s _).trans))

theorem step_schedule {s t : State} (h : step s = .next t) : t.schedule = s.schedule.tail := by
  obtain ⟨-, hs, -⟩ := takeTurn_outside h
  rw [hs, nextTurn_snd]

theorem step_reset_not_mem {s t : State} (h : step s = .next t) (hr : .reset ∉ s.schedule) : .reset ∉ t.schedule := by
  rw [step_schedule h]
  exact fun hm => hr (List.mem_of_mem_tail hm)

/-- No turn gives the host a line. -/
theorem takeTurn_program_nil {turn : Turn} {s t : State} (h : takeTurn turn s = .next t) (hp : s.program = []) :
    t.program = [] := by
  rcases takeTurn_next h with ⟨-, rfl⟩ | ⟨-, ⟨-, ht⟩ | ⟨-, ht⟩ | ⟨addr, byte, -, rfl⟩⟩
  · exact hp
  · exact (sequencerTurn_sameOutside ht).program.trans hp
  · rw [hostTurn_of_nil hp] at ht
    cases ht
    exact hp
  · exact (storeByte_program s addr byte).trans hp

theorem step_program_nil {s t : State} (h : step s = .next t) (hp : s.program = []) : t.program = [] := by
  rw [step, nextTurn_snd] at h
  exact takeTurn_program_nil h hp

theorem run_succ_next {k : Nat} {s t : State} (h : Host.Core.run core (k + 1) s = .next t) :
    ∃ u, step s = .next u ∧ Host.Core.run core k u = .next t := by
  cases hs : step s with
  | next u => exact ⟨u, rfl, run_succ_of_step k hs ▸ h⟩
  | fault r | refused r =>
    have hc : core.step s = _ := hs
    simp [Host.Core.run, hc] at h

/-- An accepted operation waits in INIT for the sequencer. -/
theorem run_stays_in_init {k : Nat} {s t : State} (hs : s.stage = stageInit) (hr : .reset ∉ s.schedule)
    (hseq : sequencerSteps k s = 0) (h : Host.Core.run core k s = .next t) : t.stage = stageInit := by
  induction k generalizing s with
  | zero =>
    cases h
    exact hs
  | succ k ih =>
    obtain ⟨u, hu, hrun⟩ := run_succ_next h
    rw [sequencerSteps_succ_of_step k hu] at hseq
    rcases step_cases hu hr with ⟨hturn, -⟩ | ⟨-, hsame | ⟨hidle, -⟩⟩
    · simp [hturn] at hseq
    · exact ih (hsame.stage.trans hs) (step_reset_not_mem hu hr) (by omega) hrun
    · exact absurd (hs.symm.trans hidle) (by decide)

/-! ### The input of an operation -/

/-- The operation of `s` is on the `len` bytes from `first` on: LEN_L is its length, and PTR and the bytes left give its
end, but for a RangeFault, which leaves N from before (10_state.md R26). -/
structure OnInput (first : Nat) (len : Word) (s : State) : Prop where
  lenL : s.lenL = len
  bracket : s.cause ≠ FaultCause.rangeFault.code → s.ptr.toNat + bytesLeft s = first + len.toNat

theorem OnInput.of_samePoint {first : Nat} {len : Word} {s t : State} (h : OnInput first len s) (hs : SamePoint s t) :
    OnInput first len t where
  lenL := hs.lenL.trans h.lenL
  bracket := by
    rw [hs.cause, hs.ptr, bytesLeft, hs.stage, hs.lenL, hs.n]
    exact h.bracket

/-- Every sequencer step stays on the input. -/
theorem OnInput.of_stageEffect {first : Nat} {len : Word} {s t : State} (h : OnInput first len s) (hinv : Inv s)
    (hb : busy s = true) (he : StageEffect s t) : OnInput first len t := by
  have hne : s.stage ≠ stageFaulted := by
    intro hs
    simp [busy, hs, stageFaulted] at hb
  have hbracket := h.bracket (by rw [(hinv.noFault hne).cause]; decide)
  have hleft : ∀ {u : State}, pastInit u = true → bytesLeft u = u.n.toNat := fun hu =>
    bytesLeft_of_ne (stage_ne_of_pastInit hu).2.1
  cases he with
  | rangeFault => exact ⟨h.lenL, fun hc => absurd rfl hc⟩
  | lanes hs =>
    obtain ⟨hp, -⟩ := initLanes_stageCounts s
    rw [bytesLeft, if_pos hs] at hbracket
    exact ⟨h.lenL, fun _ => by rw [hleft hp]; exact hbracket⟩
  | reads k hs hm | fold hs hm =>
    refine ⟨hm.lenL.trans h.lenL, fun _ => ?_⟩
    have hptr := hm.ptr
    have hn := hm.n
    rw [hleft hs] at hbracket
    rw [hleft hm.stage]
    omega
  | readFault k addr hs =>
    rw [hleft hs] at hbracket
    exact ⟨h.lenL, fun _ => hbracket⟩
  | completes hs ht =>
    rw [hleft (pastInit_of_stage hs)] at hbracket
    cases ht
    exact ⟨h.lenL, fun _ => hbracket⟩

/-- The operation on the `len` bytes from `first` on has `r` sequencer steps to go; or it has ended, with none left if it is
complete. -/
structure Follows (first : Nat) (len : Word) (r : Nat) (s : State) : Prop where
  input : OnInput first len s
  phase : Running r s ∨ (busy s = false ∧ (s.stage = stageIdle → r = 0))

theorem Follows.of_samePoint {first r : Nat} {len : Word} {s t : State} (h : Follows first len r s)
    (hs : SamePoint s t) : Follows first len r t where
  input := h.input.of_samePoint hs
  phase := by
    rw [Running, busy, hs.stage, hs.n, hs.lenL]
    exact h.phase

/-- A step of the sequencer uses up one of the steps to go, or finds the operation ended. -/
theorem Follows.sequencerTurn {first r : Nat} {len : Word} {s t : State} (h : Follows first len r s) (hinv : Inv s)
    (ht : sequencerTurn s = .next t) : ∃ r', r ≤ r' + 1 ∧ Follows first len r' t := by
  rcases h.phase with hr | ⟨hb, hidle⟩
  · obtain ⟨r', rfl, hafter⟩ := sequencerTurn_afterStep hr ht
    have hinput := h.input.of_stageEffect hinv hr.busy (sequencerTurn_effect hinv hr ht)
    refine ⟨r', le_rfl, hinput, ?_⟩
    cases hafter with
    | running hrun => exact .inl hrun
    | completed hzero hs => exact .inr ⟨by simp [busy, hs, stageIdle], fun _ => hzero⟩
    | faulted hs => exact .inr ⟨by simp [busy, hs, stageFaulted], fun hi => absurd (hs.symm.trans hi) (by decide)⟩
  · rw [sequencerTurn_of_not_busy hb ht]
    exact ⟨r, Nat.le_succ r, h⟩

/-- For as many sequencer steps as the operation has to go, and for all where the host has nothing left to start another
with, the block is on the operation's input, or has accepted the next operation and done nothing of it. -/
theorem Follows.run {first k r : Nat} {len : Word} {s t : State} (h : Follows first len r s) (hinv : Inv s)
    (hreset : .reset ∉ s.schedule) (hrun : Host.Core.run core k s = .next t)
    (hk : sequencerSteps k s ≤ r ∨ s.program = []) : t.stage = stageInit ∨ OnInput first len t := by
  induction k generalizing s r with
  | zero =>
    cases hrun
    exact .inr h.input
  | succ k ih =>
    obtain ⟨u, hu, hrun⟩ := run_succ_next hrun
    have hinv' := everyStepKeepsTheInvariant s u hinv hu
    have hreset' := step_reset_not_mem hu hreset
    rw [sequencerSteps_succ_of_step k hu] at hk
    rcases step_cases hu hreset with ⟨hturn, hseq⟩ | ⟨hturn, hsame | ⟨hidle, hprog, hinit⟩⟩
    · obtain ⟨r', hr', hfollows⟩ :=
        (h.of_samePoint (samePoint_withSchedule s _)).sequencerTurn (hinv.withSchedule _) hseq
      rw [if_pos hturn] at hk
      exact ih hfollows hinv' hreset' hrun (hk.imp (by omega) (step_program_nil hu))
    · rw [if_neg hturn] at hk
      exact ih (h.of_samePoint hsame) hinv' hreset' hrun (hk.imp_right (step_program_nil hu))
    · have hnot : ¬Running r s := fun hr => stage_ne_idle_of_busy hr.busy hidle
      obtain ⟨-, hzero⟩ := h.phase.resolve_left hnot
      rw [if_neg hturn, hzero hidle] at hk
      exact .inl (run_stays_in_init hinit hreset' (Nat.le_zero.mp (hk.resolve_right hprog)) hrun)

/-- An accepted operation has its whole input before it, and S(len) steps to go. -/
theorem AtInit.follows {s : State} (h : AtInit s) : Follows s.ptr.toNat s.lenL (operationSteps s.lenL.toNat) s where
  input := ⟨rfl, fun _ => by rw [bytesLeft, if_pos h.stage]⟩
  phase := .inl (.init h.stage)

/-- Settles O50: the operation is followed along the run, and past INIT the bytes left are N. -/
theorem operationsKeepTheInputEnd : Obligations.OperationsKeepTheInputEnd := by
  intro s t k hinit hinv hreset hrun hk hstage hcause
  have hinput := (hinit.follows.run hinv hreset hrun hk).resolve_left hstage
  rw [← bytesLeft_of_ne hstage]
  exact hinput.bracket hcause

end Sys2Proof.Machine
end

section
/-! PROOFS. The memory port: side-effecting reads stop a reading stage (20_memory.md R58), no instruction stores (R50, R59),
a store during an operation is a draw (R59), and what stands at START is what the operation reads (R62). -/

namespace Sys2Proof.Machine

/-! ### Reads with side effects (R58) -/

/-- A side-effecting byte among the `k` bytes from `p` on makes `r` unsaid, and only an address among them does. -/
structure StopsAtSideEffects {α : Type} (s : State) (p k : Nat) (r : ReadResult α) : Prop where
  stops : ∀ x, p ≤ x → x < p + k → memRead s x = .unsaid x → ∃ addr, r = .unsaid addr
  inside : ∀ addr, r = .unsaid addr → p ≤ addr ∧ addr < p + k

theorem StopsAtSideEffects.both {α β γ : Type} {s : State} {p j k : Nat} {f : α → β → γ} {x : ReadResult α}
    {y : ReadResult β} (hx : StopsAtSideEffects s p j x) (hy : StopsAtSideEffects s (p + j) k y) :
    StopsAtSideEffects s p (j + k) (ReadResult.both f x y) where
  stops a lo hi ha := by
    by_cases hlow : ∃ addr, x = .unsaid addr
    · exact hlow.imp fun _ h => ReadResult.both_eq_unsaid.mpr (.inl h)
    · have hup : p + j ≤ a := by
        by_contra hlt
        exact hlow (hx.stops a lo (Nat.not_le.mp hlt) ha)
      obtain ⟨addr, h⟩ := hy.stops a hup (by omega) ha
      exact ⟨addr, ReadResult.both_eq_unsaid.mpr (.inr ⟨not_exists.mp hlow, h⟩)⟩
  inside addr h := by
    rcases ReadResult.both_eq_unsaid.mp h with h | ⟨-, h⟩
    · have := hx.inside addr h
      omega
    · have := hy.inside addr h
      omega

theorem stopsAtSideEffects_memRead (s : State) (p : Nat) : StopsAtSideEffects s p 1 (memRead s p) where
  stops x lo hi hx := by
    obtain rfl : x = p := by omega
    exact ⟨x, hx⟩
  inside addr h := by
    obtain ⟨rfl, -⟩ := memRead_eq_unsaid.mp h
    omega

theorem stopsAtSideEffects_loadLE (s : State) (p k : Nat) : StopsAtSideEffects s p k (loadLE s p k) := by
  induction k with
  | zero => exact ⟨fun _ _ _ _ => by omega, fun _ h => nomatch h⟩
  | succ k ih => exact ih.both (stopsAtSideEffects_memRead s (p + k))

theorem stopsAtSideEffects_loadBlock (s : State) (p : Nat) : StopsAtSideEffects s p 32 (loadBlock s p) :=
  ((stopsAtSideEffects_loadLE s p 8).both (stopsAtSideEffects_loadLE s (p + 8) 8)).both
    ((stopsAtSideEffects_loadLE s (p + 16) 8).both (stopsAtSideEffects_loadLE s (p + 24) 8))

/-- A reading stage stops where one of the bytes it asks for has read side effects. -/
theorem StopsAtSideEffects.readingStage {α : Type} {s : State} {p k j : Nat} {r : ReadResult α}
    (h : StopsAtSideEffects s p k r) (hj : j < k) (hx : memRead s (p + j) = .unsaid (p + j)) (writes : α → State) :
    ∃ addr, p ≤ addr ∧ addr < p + k ∧ readingStage s p k r writes = .fault (.sideEffectRead addr) := by
  obtain ⟨addr, rfl⟩ := h.stops (p + j) (Nat.le_add_right p j) (Nat.add_lt_add_left hj p) hx
  obtain ⟨lo, hi⟩ := h.inside addr rfl
  exact ⟨addr, lo, hi, rfl⟩

/-- Settles O22: whatever a stage loads, a side-effecting byte in it makes the load unsaid. -/
theorem sideEffectReadsStopTheModel : Obligations.SideEffectReadsStopTheModel := by
  rintro s i k (⟨rfl, rfl⟩ | ⟨rfl | rfl | rfl, rfl⟩ | ⟨rfl, rfl, lo, hi⟩) j hj hx
  case inl => exact (stopsAtSideEffects_loadBlock s _).readingStage hj hx _
  case inr.inr =>
    simp only [exec, execTail1, tail64, lo, hi, and_self, if_true]
    exact (stopsAtSideEffects_loadLE s _ _).readingStage hj hx _
  all_goals exact (stopsAtSideEffects_loadLE s _ 8).readingStage hj hx _

/-! ### The draws of an operation -/

/-- START leaves the draws or ends them, and every other instruction leaves them (20_memory.md R59, log 8). -/
theorem exec_drawn {i : Instr} {s t : State} (h : exec i s = .next t) :
    t.drawn = s.drawn ∨ ((∃ v, i = .start v) ∧ t.drawn = []) := by
  cases i with
  | init =>
    simp only [exec, execInit] at h
    split_ifs at h <;> cases h <;> exact .inl rfl
  | start data =>
    simp only [exec, execStart] at h
    split_ifs at h <;> cases h
    · exact .inr ⟨⟨data, rfl⟩, rfl⟩
    · exact .inl rfl
  | block | tail25 | tail17 | tail9 => exact .inl (readingStage_keeps State.drawn h (fun _ _ => rfl) fun _ => rfl)
  | tail1 => exact .inl (readingStage_keeps State.drawn (execTail1_next h) (fun _ _ => rfl) fun _ => rfl)
  | idle | fold | final | faulted | wrDataAddr | wrLen | wrSeed | wrStatusIgnored | wrDigestIgnored | wrCauseIgnored
  | wrFaultAddrIgnored | rdCtrl | rdStatus | rdDataAddr | rdLen | rdSeed | rdDigest | rdCause | rdFaultAddr =>
    cases h
    exact .inl rfl

/-- Settles O37: MemRead looks at the platform, the data space and the draws, and only START touches any of them. -/
theorem noInstructionStores : Obligations.NoInstructionStores := by
  intro i s t h
  obtain ⟨hp, hm, -, -⟩ := exec_sameOutside h
  refine ⟨fun addr => by rw [hm], hm, ?_⟩
  rcases exec_drawn h with hd | ⟨⟨v, rfl⟩, hd⟩
  · have hsame := memRead_congr hp hm hd
    exact ⟨fun _ => congrFun hsame, fun _ _ => .inl (congrFun hsame)⟩
  · have hclear : memRead t = memRead { s with drawn := [] } := memRead_congr hp hm hd
    exact ⟨fun hne => absurd rfl (hne v), fun _ _ => .inr (congrFun hclear)⟩

/-! ### Stores from outside -/

/-- After a store a readable address holds the byte stored. -/
theorem storeByte_read_same {s : State} {addr : Nat} (byte : Byte) (h : s.mem.read addr ≠ none) :
    (storeByte s addr byte).mem.read addr = some byte := by
  rcases storeByte_cases s addr byte with ⟨hs, hr⟩ | ⟨-, -, ⟨-, hs⟩ | ⟨-, hs⟩⟩ <;> rw [hs]
  · exact hr.resolve_left h
  · exact Memory.read_write_same s.mem addr byte
  · exact Memory.read_write_same s.mem addr byte

/-- A change of a readable byte while an operation runs (20_memory.md R59, log 8, 9). -/
theorem storeByte_of_busy {s : State} {addr : Nat} {byte old : Byte} (hb : busy s = true)
    (hr : s.mem.read addr = some old) (hne : old ≠ byte) :
    storeByte s addr byte =
      { s with
        mem := s.mem.write addr byte
        drawn := s.drawn.write addr (Config.drawByte s.draws)
        draws := s.draws + 1 } := by
  simp [storeByte, hr, hne, hb]

/-- MemRead at an address depends on the platform and on what stands at that address only. -/
theorem memRead_congr_at {s t : State} {x : Nat} (hp : t.platform = s.platform)
    (hm : t.mem.read x = s.mem.read x) (hd : t.drawn.read x = s.drawn.read x) : memRead t x = memRead s x := by
  simp only [memRead, hp, hm, hd]

/-- A store whose turn is next takes effect in the next step, unless STAGE is reserved (log 14, 23). -/
theorem step_of_memWrite {s : State} {addr : Nat} {byte : Byte} {ts : List Turn}
    (h : s.schedule = .memWrite addr byte :: ts) :
    step s = unlessReserved s (.next (storeByte { s with schedule := ts } addr byte)) := by
  rw [step, nextTurn_snd]
  simp only [nextTurn, h, List.tail_cons, takeTurn]
  rfl

/-- Settles O44: the draw goes where the byte stands, and both writes leave the other addresses. -/
theorem storeDuringAnOperationMakesADraw : Obligations.StoreDuringAnOperationMakesADraw := by
  intro s addr byte old ts hb hs hr hne
  refine ⟨_, (step_of_memWrite hs).trans (unlessReserved_of_busy hb _), ?_⟩
  rw [storeByte_of_busy (s := { s with schedule := ts }) hb hr hne]
  refine ⟨fun hlt hside => ?_, fun x hx => ?_, Memory.read_write_same _ _ _, rfl⟩
  · have hdraw := Memory.read_write_same s.drawn addr (Config.drawByte s.draws)
    exact memRead_eq_ok.mpr ⟨hlt, hside, byte, Memory.read_write_same _ _ _, by rw [hdraw, Option.getD_some]⟩
  · have hm := Memory.read_write_other s.mem byte hx
    exact ⟨memRead_congr_at rfl hm (Memory.read_write_other s.drawn _ hx), hm⟩

/-! ### What an operation finds at START (20_memory.md R62) -/

/-- START in IDLE with bit 0 set is accepted (42_host_and_init.md R120). -/
theorem execStart_of_idle {s : State} {v : Word} (hs : s.stage = stageIdle) (hv : v.getLsbD 0 = true) :
    exec (.start v) s = .next (acceptStart s) := by
  simp [exec, execStart, hs, hv]

/-- An accepted operation reads M's byte: it has no draw yet. -/
theorem memRead_acceptStart {s : State} {addr : Nat} {byte : Byte} (hr : s.mem.read addr = some byte)
    (hlt : addr < 2 ^ s.platform.addrW) (hside : s.platform.hasSideEffects addr = false) :
    memRead (acceptStart s) addr = .ok byte :=
  memRead_eq_ok.mpr ⟨hlt, hside, byte, hr, rfl⟩

/-- Settles O45: the byte stored stands in M, and START leaves no draw over it. -/
theorem storesBeforeStartAreVisible : Obligations.StoresBeforeStartAreVisible := by
  intro s addr byte old v hs hv hr hlt hside
  have hread := storeByte_read_same byte (s := s) (hr ▸ Option.some_ne_none old)
  refine ⟨_, execStart_of_idle ((storeByte_stage s addr byte).trans hs) hv, memRead_acceptStart hread ?_ ?_, ?_⟩
  · rwa [storeByte_platform]
  · rwa [storeByte_platform]
  · exact fun x hx => ⟨storeByte_read_other s byte hx, rfl⟩

/-- What every step keeps holds after a run. -/
theorem run_keeps {P : State → Prop} (hstep : ∀ {s t}, P s → step s = .next t → P t) {k : Nat} {s t : State}
    (h : Host.Core.run core k s = .next t) (hs : P s) : P t := by
  induction k generalizing s with
  | zero =>
    cases h
    exact hs
  | succ k ih =>
    obtain ⟨u, hu, hrun⟩ := run_succ_next h
    exact ih hrun (hstep hs hu)

/-- On the platform `p` the byte at `addr` is `byte`, and no store to come meets it. -/
structure HoldsByte (p : Platform) (addr : Nat) (byte : Byte) (s : State) : Prop where
  platform : s.platform = p
  read : s.mem.read addr = some byte
  untouched : ∀ b, .memWrite addr b ∉ s.schedule

/-- A store is a turn of the schedule: the default order has none (log 2). -/
theorem mem_schedule_of_memWrite {s : State} {addr : Nat} {byte : Byte} (h : (nextTurn s).1 = .memWrite addr byte) :
    .memWrite addr byte ∈ s.schedule := by
  rcases nextTurn_cases s with ⟨-, hn⟩ | ⟨turn, rest, hs, hn⟩ <;> rw [hn] at h
  · rcases defaultTurn_cases s with ⟨hd, -⟩ | ⟨hd, -⟩ <;> simp [hd] at h
  · obtain rfl := h
    exact hs ▸ List.mem_cons_self ..

theorem HoldsByte.step {p : Platform} {addr : Nat} {byte : Byte} {s t : State} (h : HoldsByte p addr byte s)
    (ht : step s = .next t) : HoldsByte p addr byte t := by
  obtain ⟨hp, -, hbyte⟩ := parametersAndReadableSetNeverChange s t ht
  refine ⟨hp.trans h.platform, ?_, fun b hb => ?_⟩
  · by_contra hne
    obtain ⟨b, hturn⟩ := hbyte addr (h.read ▸ hne)
    exact h.untouched b (mem_schedule_of_memWrite hturn)
  · rw [step_schedule ht] at hb
    exact h.untouched b (List.mem_of_mem_tail hb)

/-- Settles O46: the byte stands in M from the store on, and START leaves no draw over it. -/
theorem storesAreVisibleToTheNextOperation : Obligations.StoresAreVisibleToTheNextOperation := by
  intro s u addr k byte old ts v hs hr hlt hside hclear _ hrun hidle hv
  obtain ⟨t, ht, hrun⟩ := run_succ_next hrun
  have hstored : HoldsByte s.platform addr byte t := by
    rw [step_of_memWrite hs, unlessReserved] at ht
    split_ifs at ht
    cases ht
    exact ⟨storeByte_platform .., storeByte_read_same byte (hr ▸ Option.some_ne_none old),
      by rwa [storeByte_schedule]⟩
  obtain ⟨hp, hread, -⟩ := run_keeps HoldsByte.step hrun hstored
  exact ⟨_, execStart_of_idle hidle hv, rfl, memRead_acceptStart hread (hp ▸ hlt) (hp ▸ hside)⟩

end Sys2Proof.Machine
end

section
/-! PROOFS. The read set of an operation (20_memory.md R55, R56): what the invariant says of it, on the input that the
operation keeps along the run. -/

namespace Sys2Proof.Machine

/-! ### The empty input reads nothing -/

theorem StageEffect.lenL {s t : State} (h : StageEffect s t) : t.lenL = s.lenL := by
  cases h with
  | rangeFault | lanes | readFault => rfl
  | reads k hs hm | fold hs hm => exact hm.lenL
  | completes hs ht =>
    cases ht
    rfl

/-- With LEN_L = 0 no reading stage is reached, so a sequencer step adds nothing to the reads. -/
theorem sequencerTurn_reads_of_empty {r : Nat} {s t : State} (hinv : Inv s) (hr : Running r s)
    (hlen : s.lenL.toNat = 0) (h : sequencerTurn s = .next t) : t.reads = s.reads := by
  have hleft : pastInit s = true → s.n.toNat ≤ s.lenL.toNat := fun hp => (hinv.counts (.inl hp)).left
  cases hr with
  | init hs =>
    rw [sequencerTurn_of_stage hs rfl] at h
    simp only [exec, execInit] at h
    split_ifs at h <;> cases h <;> rfl
  | fold hs | final hs =>
    rw [sequencerTurn_of_stage hs rfl] at h
    cases h
    rfl
  | block hs lo | tail25 hs lo | tail17 hs lo | tail9 hs lo | tail1 hs lo =>
    have := hleft (pastInit_of_stage hs)
    omega

/-- Where the input is empty, nothing has been read. -/
def EmptyReadsNothing (s : State) : Prop := s.lenL.toNat = 0 → s.reads = []

theorem EmptyReadsNothing.sequencerTurn {s t : State} (h : EmptyReadsNothing s) (hinv : Inv s)
    (ht : sequencerTurn s = .next t) : EmptyReadsNothing t := by
  intro hlen
  by_cases hb : busy s = true
  · obtain ⟨r, hr⟩ := hinv.running hb
    rw [(sequencerTurn_effect hinv hr ht).lenL] at hlen
    rw [sequencerTurn_reads_of_empty hinv hr hlen ht, h hlen]
  · obtain rfl := sequencerTurn_of_not_busy (by simpa using hb) ht
    exact h hlen

/-- What the read set rests on along a run without a reset. -/
structure ReadsInOrder (s : State) : Prop where
  inv : Inv s
  noReset : .reset ∉ s.schedule
  empty : EmptyReadsNothing s

theorem ReadsInOrder.step {s t : State} (h : ReadsInOrder s) (ht : step s = .next t) : ReadsInOrder t := by
  have hinv := everyStepKeepsTheInvariant s t h.inv ht
  refine ⟨hinv, step_reset_not_mem ht h.noReset, ?_⟩
  rcases step_cases ht h.noReset with ⟨-, hseq⟩ | ⟨-, hsame | ⟨-, -, hinit⟩⟩
  · have hempty : EmptyReadsNothing { s with schedule := s.schedule.tail } := h.empty
    exact hempty.sequencerTurn (h.inv.withSchedule _) hseq
  · rw [EmptyReadsNothing, hsame.reads, hsame.lenL]
    exact h.empty
  · obtain ⟨-, hnone⟩ := hinv.init hinit
    exact fun _ => hnone

/-! ### Completed and faulted operations -/

/-- Past INIT the bytes read begin at the start of the input, and the bytes left end at its end (10_state.md R26). -/
theorem OnInput.brackets {first : Nat} {len : Word} {t : State} (h : OnInput first len t) (hc : CountsOk t)
    (hs : t.stage ≠ stageInit) (hcause : t.cause ≠ FaultCause.rangeFault.code) :
    t.ptr.toNat - consumed t = first ∧ t.ptr.toNat + t.n.toNat = first + len.toNat := by
  have hend := h.bracket hcause
  rw [bytesLeft_of_ne hs] at hend
  obtain ⟨hleft, hstart, -⟩ := hc
  rw [consumed, h.lenL] at hstart
  rw [h.lenL] at hleft
  rw [consumed, h.lenL]
  omega

/-- A completed operation has read its whole input (R55). -/
theorem Inv.readsCover_of_done {first : Nat} {len : Word} {t : State} (h : Inv t) (hin : OnInput first len t)
    (hd : t.done = true) : ReadsCover t.reads first (first + len.toNat) := by
  have hstage := h.done hd
  have hcause : t.cause = 0 := (h.noFault (hstage ▸ by decide)).cause
  obtain ⟨hfirst, hlast⟩ := hin.brackets (h.counts (.inr hd)) (hstage ▸ by decide) (hcause ▸ by decide)
  rw [h.complete hd, Nat.add_zero] at hlast
  rw [← hlast, ← hfirst]
  exact h.reads (.inr hd)

/-- The causes of a stop are the two faults (60_exceptions.md R160). -/
theorem Inv.cause_of_faulted {t : State} (h : Inv t) (hs : t.stage = stageFaulted) :
    t.cause = FaultCause.readFault.code ∨ t.cause = FaultCause.rangeFault.code := by
  have hall : ∀ c : BitVec 8, c ≠ 0 → c.toNat ≤ 2 → c = FaultCause.readFault.code ∨ c = FaultCause.rangeFault.code := by
    decide
  exact hall _ (h.faulted.mp hs) h.cause

/-- A faulted operation has read bytes of its input only, each once, ascending from step to step (R55, R56). -/
theorem Inv.reads_of_faulted {first : Nat} {len : Word} {t : State} (h : Inv t) (hin : OnInput first len t)
    (hs : t.stage = stageFaulted) :
    StepsAscend t.reads ∧ ∀ addrs ∈ t.reads, addrs.Nodup ∧ ∀ x ∈ addrs, first ≤ x ∧ x < first + len.toNat := by
  rcases h.cause_of_faulted hs with hc | hc
  · obtain ⟨hcounts, -, -, before, last, hreads, hcover, hlast⟩ := h.readFault hc
    obtain ⟨hfirst, hend⟩ := hin.brackets hcounts (hs ▸ by decide) (hc ▸ by decide)
    have hbefore : ∀ addrs ∈ before, ∀ x ∈ addrs, first ≤ x ∧ x < t.ptr.toNat := fun addrs ha x hx =>
      hfirst ▸ (hcover.covers x).mp ⟨addrs, ha, hx⟩
    rw [hreads]
    refine ⟨hcover.ascend.snoc (fun addrs ha x hx => (hbefore addrs ha x hx).2) fun x hx => (hlast.inside x hx).1,
      fun addrs ha => ?_⟩
    rcases List.mem_append.mp ha with ha | ha
    · exact ⟨hcover.once addrs ha, fun x hx => by have := hbefore addrs ha x hx; omega⟩
    · obtain rfl := List.mem_singleton.mp ha
      exact ⟨hlast.once, fun x hx => by have := hlast.inside x hx; omega⟩
  · obtain ⟨hnone, -, -⟩ := h.rangeFault hc
    rw [hnone]
    exact ⟨List.Pairwise.nil, fun _ ha => absurd ha List.not_mem_nil⟩

/-- Settles O49: the run stays on the operation's input, of which the invariant gives the read set; or it has accepted
the next operation, which has read nothing. -/
theorem operationsReadTheirInputOnce : Obligations.OperationsReadTheirInputOnce := by
  intro s t k hinit hinv hreset hrun hk
  obtain ⟨ht, -, hempty⟩ := run_keeps ReadsInOrder.step hrun ⟨hinv, hreset, fun _ => hinit.reads⟩
  rcases hinit.follows.run hinv hreset hrun hk with hstage | hin
  · obtain ⟨-, hnone⟩ := ht.init hstage
    refine ⟨fun hd => ?_, fun hs => absurd (hstage.symm.trans hs) (by decide), fun _ => hnone⟩
    exact absurd (hstage.symm.trans (ht.done hd)) (by decide)
  · refine ⟨ht.readsCover_of_done hin, fun hs => ?_, fun hlen => hempty (hin.lenL ▸ hlen)⟩
    obtain ⟨hascend, hread⟩ := ht.reads_of_faulted hin hs
    refine ⟨hascend, fun addrs ha => ⟨(hread addrs ha).1, fun x hx => ?_⟩⟩
    obtain ⟨lo, hi⟩ := (hread addrs ha).2 x hx
    exact ⟨lo, hi, fun hne hnone => hne (ht.readable addrs ha x hx hnone).2⟩

end Sys2Proof.Machine
end

section
/-! PROOFS. The encodings (30_encoding.md R70, R74, R75, R80): the sixteen host accesses as direction and register, and
that decoding and encoding are inverse. -/

namespace Sys2Proof.Machine

/-! ### The host accesses by direction and register -/

/-- The instruction of an access to a register (30_encoding.md R74); a read has no data. -/
def accessInstr : Direction → HostReg → Word → Instr
  | .write, .ctrl, data => .start data
  | .write, .status, data => .wrStatusIgnored data
  | .write, .dataAddr, data => .wrDataAddr data
  | .write, .len, data => .wrLen data
  | .write, .seed, data => .wrSeed data
  | .write, .digest, data => .wrDigestIgnored data
  | .write, .cause, data => .wrCauseIgnored data
  | .write, .faultAddr, data => .wrFaultAddrIgnored data
  | .read, .ctrl, _ => .rdCtrl
  | .read, .status, _ => .rdStatus
  | .read, .dataAddr, _ => .rdDataAddr
  | .read, .len, _ => .rdLen
  | .read, .seed, _ => .rdSeed
  | .read, .digest, _ => .rdDigest
  | .read, .cause, _ => .rdCause
  | .read, .faultAddr, _ => .rdFaultAddr

/-- The key of an access to a register (30_encoding.md R80). -/
def accessKey (dir : Direction) (r : HostReg) : BitVec 7 := directionBit dir ++ BitVec.ofNat 6 r.offset

/-- The data bits the encoder writes: a read's are 0 (log 13). -/
def encodedData : Direction → Word → Word
  | .write, data => data
  | .read, _ => 0

theorem encode_accessInstr (dir : Direction) (r : HostReg) (data : Word) :
    encode (accessInstr dir r data) = .bus (packBus (accessKey dir r) (encodedData dir data)) := by
  cases dir <;> cases r <;> rfl

/-- A read is one instruction whatever its data bits. -/
theorem accessInstr_encodedData (dir : Direction) (r : HostReg) (data : Word) :
    accessInstr dir r (encodedData dir data) = accessInstr dir r data := by
  cases dir with
  | write => rfl
  | read => cases r <;> rfl

/-- Every instruction is a stage with its code, or an access to a register (30_encoding.md R70, R74). -/
theorem instr_cases (i : Instr) :
    (∃ code, encode i = .stage code ∧ decodeStage code = .ok i) ∨ ∃ dir r data, i = accessInstr dir r data := by
  cases i with
  | idle | init | block | fold | tail25 | tail17 | tail9 | tail1 | final | faulted => exact .inl ⟨_, rfl, rfl⟩
  | start data => exact .inr ⟨.write, .ctrl, data, rfl⟩
  | wrStatusIgnored data => exact .inr ⟨.write, .status, data, rfl⟩
  | wrDataAddr data => exact .inr ⟨.write, .dataAddr, data, rfl⟩
  | wrLen data => exact .inr ⟨.write, .len, data, rfl⟩
  | wrSeed data => exact .inr ⟨.write, .seed, data, rfl⟩
  | wrDigestIgnored data => exact .inr ⟨.write, .digest, data, rfl⟩
  | wrCauseIgnored data => exact .inr ⟨.write, .cause, data, rfl⟩
  | wrFaultAddrIgnored data => exact .inr ⟨.write, .faultAddr, data, rfl⟩
  | rdCtrl => exact .inr ⟨.read, .ctrl, 0, rfl⟩
  | rdStatus => exact .inr ⟨.read, .status, 0, rfl⟩
  | rdDataAddr => exact .inr ⟨.read, .dataAddr, 0, rfl⟩
  | rdLen => exact .inr ⟨.read, .len, 0, rfl⟩
  | rdSeed => exact .inr ⟨.read, .seed, 0, rfl⟩
  | rdDigest => exact .inr ⟨.read, .digest, 0, rfl⟩
  | rdCause => exact .inr ⟨.read, .cause, 0, rfl⟩
  | rdFaultAddr => exact .inr ⟨.read, .faultAddr, 0, rfl⟩

/-! ### Offsets and keys -/

/-- The offsets of R28 lie in the window, 8-byte aligned. -/
theorem offset_legal (r : HostReg) : r.offset < 64 ∧ r.offset % 8 = 0 := by
  cases r <;> decide

/-- Every aligned offset of the window has its register (10_state.md R28). -/
theorem exists_offset_eq {offset : Nat} (hlt : offset < 64) (h : offset % 8 = 0) : ∃ r : HostReg, r.offset = offset := by
  obtain ⟨q, rfl⟩ := Nat.dvd_of_mod_eq_zero h
  have hq : q < 8 := by omega
  interval_cases q
  exacts [⟨.ctrl, rfl⟩, ⟨.status, rfl⟩, ⟨.dataAddr, rfl⟩, ⟨.len, rfl⟩, ⟨.seed, rfl⟩, ⟨.digest, rfl⟩, ⟨.cause, rfl⟩,
    ⟨.faultAddr, rfl⟩]

theorem toNat_accessKey_reg (dir : Direction) (r : HostReg) :
    (accessKey dir r).toNat = (directionBit dir).toNat * 64 + r.offset :=
  toNat_accessKey dir (offset_legal r).1

theorem accessKey_bit6 (dir : Direction) (r : HostReg) : (accessKey dir r).getLsbD 6 = (dir == .write) := by
  cases dir <;> cases r <;> rfl

/-- The keys of the sixteen accesses are the multiples of 8 (30_encoding.md R75, R80). -/
theorem exists_accessKey_eq {key : BitVec 7} : key.toNat % 8 = 0 ↔ ∃ dir r, accessKey dir r = key := by
  constructor
  · intro h
    have hlt := key.isLt
    obtain ⟨r, hr⟩ := exists_offset_eq (offset := key.toNat % 64) (by omega) (by omega)
    obtain ⟨dir, hdir⟩ : ∃ dir, (directionBit dir).toNat = key.toNat / 64 := by
      obtain h0 | h1 : key.toNat / 64 = 0 ∨ key.toNat / 64 = 1 := by omega
      · exact ⟨.read, h0.symm⟩
      · exact ⟨.write, h1.symm⟩
    refine ⟨dir, r, BitVec.eq_of_toNat_eq ?_⟩
    rw [toNat_accessKey_reg]
    omega
  · rintro ⟨dir, r, rfl⟩
    have := (offset_legal r).2
    rw [toNat_accessKey_reg]
    omega

/-! ### Decoding -/

/-- The bus word of an access decodes to it, whatever the data bits of a read. -/
theorem decodeBus_accessKey (dir : Direction) (r : HostReg) (data : Word) :
    decodeBus (packBus (accessKey dir r) data) = .ok (accessInstr dir r data) := by
  simp only [decodeBus, busKey_packBus, busData_packBus]
  cases dir <;> cases r <;> rfl

/-- A key that is no multiple of 8 has no instruction (30_encoding.md R75). -/
theorem key_aligned_of_decodeBus {word : BitVec 71} {i : Instr} (h : decodeBus word = .ok i) :
    (busKey word).toNat % 8 = 0 := by
  unfold decodeBus at h
  split at h <;> first | omega | cases h

/-- A bus word has an instruction where its key is an access's, and then that access. -/
theorem decodeBus_eq_ok {word : BitVec 71} {i : Instr} :
    decodeBus word = .ok i ↔ ∃ dir r, busKey word = accessKey dir r ∧ i = accessInstr dir r (busData word) := by
  have hdecode : ∀ dir r, busKey word = accessKey dir r →
      decodeBus word = .ok (accessInstr dir r (busData word)) := fun dir r hkey => by
    rw [← decodeBus_accessKey, ← hkey, packBus_eta]
  constructor
  · intro h
    obtain ⟨dir, r, hkey⟩ := exists_accessKey_eq.mp (key_aligned_of_decodeBus h)
    exact ⟨dir, r, hkey.symm, Except.ok.inj (h.symm.trans (hdecode dir r hkey.symm))⟩
  · rintro ⟨dir, r, hkey, rfl⟩
    exact hdecode dir r hkey

/-- The platform access to a register, in a window at any base, is legal and asks for its instruction
(42_host_and_init.md R124). -/
theorem access_legal (base : Nat) (dir : Direction) (r : HostReg) (data : Word) :
    BusAccess.wf base ⟨dir, base + r.offset, 64, data⟩ = true ∧
      decodeAccess base ⟨dir, base + r.offset, 64, data⟩ = .ok (accessInstr dir r data) := by
  obtain ⟨hlt, halign⟩ := offset_legal r
  constructor
  · simp [BusAccess.wf, halign, hlt]
  · rw [decodeAccess, if_neg (by simp), if_neg (by simp only; omega)]
    simp only [Nat.add_sub_cancel_left]
    exact decodeBus_accessKey dir r data

/-- The platform access of a register's bus word. -/
theorem accessOfBus_accessKey (base : Nat) (dir : Direction) (r : HostReg) (data : Word) :
    accessOfBus base (packBus (accessKey dir r) data) = ⟨dir, base + r.offset, 64, data⟩ := by
  have hdir : (if dir == .write then Direction.write else .read) = dir := by cases dir <;> rfl
  have hoffset : (accessKey dir r).toNat % 64 = r.offset := by
    have := (offset_legal r).1
    rw [toNat_accessKey_reg]
    omega
  simp only [accessOfBus, busKey_packBus, busData_packBus, accessKey_bit6, hdir, hoffset]

/-- A legal bus word is one whose key is a multiple of 8: the data lie above bit 6 (30_encoding.md R75, log 13). -/
theorem bus_wf_iff {word : BitVec 71} : (Encoded.bus word).wf = true ↔ (busKey word).toNat % 8 = 0 := by
  have hkey : (busKey word).toNat = word.toNat % 128 := by simp [busKey]
  simp only [Encoded.wf, beq_iff_eq, hkey]
  omega

/-! ### The obligations -/

/-- Settles O1: a stage's code and an access's key each decode to the instruction they encode. -/
theorem decodeOfEncodeIsTheInstruction : Obligations.DecodeOfEncodeIsTheInstruction := by
  intro base i
  rcases instr_cases i with ⟨code, henc, hdec⟩ | ⟨dir, r, data, rfl⟩
  · refine ⟨by rw [henc]; exact hdec, fun a ha => ?_⟩
    simp [encodeAccess, henc] at ha
  · refine ⟨?_, fun a ha => ?_⟩
    · rw [encode_accessInstr, ← accessInstr_encodedData dir r data]
      exact decodeBus_accessKey dir r _
    · simp only [encodeAccess, encode_accessInstr, accessOfBus_accessKey, Option.some.injEq] at ha
      rw [← ha, ← accessInstr_encodedData dir r data]
      exact access_legal base dir r _

/-- Settles O2: the codes and keys with an instruction are the legal ones, and a write is all of its bus word. -/
theorem legalEncodingsAreExactlyTheDecoded : Obligations.LegalEncodingsAreExactlyTheDecoded := by
  intro e
  cases e with
  | stage code =>
    refine ⟨⟨fun hwf => ?_, fun ⟨i, hi⟩ => ?_⟩, fun i hi => .inl (decodeStage_eq_ok hi)⟩
    · cases hdec : decodeStage code with
      | ok i => exact ⟨i, hdec⟩
      | error e => simp [Encoded.wf, (decodeStage_error hdec).1] at hwf
    · simp [Encoded.wf, decodeStage_ok_legal hi]
  | bus word =>
    refine ⟨⟨fun hwf => ?_, fun ⟨i, hi⟩ => bus_wf_iff.mpr (key_aligned_of_decodeBus hi)⟩, fun i hi => ?_⟩
    · obtain ⟨dir, r, hkey⟩ := exists_accessKey_eq.mp (bus_wf_iff.mp hwf)
      exact ⟨_, decodeBus_eq_ok.mpr ⟨dir, r, hkey.symm, rfl⟩⟩
    · obtain ⟨dir, r, hkey, rfl⟩ := decodeBus_eq_ok.mp hi
      rw [encode_accessInstr, ← hkey]
      cases dir with
      | write => exact .inl (congrArg Encoded.bus (packBus_eta word))
      | read => exact .inr ⟨word, rfl, by rw [hkey, accessKey_bit6]; rfl, rfl⟩

/-- Settles O3: R70's codes compute, and R74's keys are those of CTRL, LEN and DIGEST. -/
theorem writtenEncodingsDecode : Obligations.WrittenEncodingsDecode :=
  ⟨rfl, rfl, rfl, rfl, decodeBus_accessKey .write .ctrl 1, decodeBus_accessKey .write .len 33,
    decodeBus_accessKey .read .digest 0⟩

end Sys2Proof.Machine
end

section
/-! PROOFS. Which turn a step takes and what it performs (30_encoding.md R71, R74, R78), that no step makes STAGE reserved
(R76), and which turns move STAGE (10_state.md R25). -/

namespace Sys2Proof.Machine

/-! ### The turn of a step -/

/-- The schedule's first turn is the one that a step takes (42_host_and_init.md R125). -/
theorem step_of_cons {s : State} {turn : Turn} {ts : List Turn} (h : s.schedule = turn :: ts) :
    step s = takeTurn turn { s with schedule := ts } := by
  simp only [step, nextTurn, h]

/-- With the schedule used up a step takes the default turn (log 2). -/
theorem step_of_nil {s : State} (h : s.schedule = []) : step s = takeTurn (defaultTurn s) s := by
  simp only [step, nextTurn, h]

/-- A turn that finds a legal stage code is not refused for it. -/
theorem unlessReserved_of_legal {s : State} (h : stageCodeReserved s.stage = false)
    (o : Host.Outcome State Fault Refusal) : unlessReserved s o = o := by
  simp [unlessReserved, h]

theorem takeTurn_sequencer {s : State} (h : stageCodeReserved s.stage = false) :
    takeTurn .sequencer s = sequencerTurn s :=
  unlessReserved_of_legal h _

theorem takeTurn_host {s : State} (h : stageCodeReserved s.stage = false) : takeTurn .host s = hostTurn s :=
  unlessReserved_of_legal h _

/-- A reserved stage code refuses every turn but reset (30_encoding.md R76, log 14). -/
theorem takeTurn_of_reserved {turn : Turn} {s : State} (h : stageCodeReserved s.stage = true) (hr : turn ≠ .reset) :
    takeTurn turn s = .refused (.reservedStage s.stage) := by
  cases turn with
  | reset => exact absurd rfl hr
  | sequencer | host | memWrite => simp [takeTurn, unlessReserved, h]

theorem defaultTurn_of_busy_or_nil {s : State} (h : busy s = true ∨ s.program = []) : defaultTurn s = .sequencer := by
  unfold defaultTurn
  split_ifs with hb hp
  · rfl
  · rfl
  · exact absurd h (not_or.mpr ⟨hb, hp⟩)

theorem defaultTurn_of_idle_host {s : State} (hb : busy s = false) (hp : s.program ≠ []) : defaultTurn s = .host := by
  simp [defaultTurn, hb, hp]

/-- A step of the sequencer, taken off the schedule. -/
theorem step_of_sequencer {s : State} {ts : List Turn} (h : s.schedule = .sequencer :: ts)
    (hlegal : stageCodeReserved s.stage = false) : step s = sequencerTurn { s with schedule := ts } :=
  (step_of_cons h).trans (takeTurn_sequencer (s := { s with schedule := ts }) hlegal)

/-- A step of the host, taken off the schedule. -/
theorem step_of_host {s : State} {ts : List Turn} (h : s.schedule = .host :: ts)
    (hlegal : stageCodeReserved s.stage = false) : step s = hostTurn { s with schedule := ts } :=
  (step_of_cons h).trans (takeTurn_host (s := { s with schedule := ts }) hlegal)

/-- Settles O6: the turn is the sequencer's, whose operation STAGE names. -/
theorem sequencerStepRunsTheStage : Obligations.SequencerStepRunsTheStage := by
  intro s i hi
  have hlegal := decodeStage_ok_legal hi
  refine ⟨fun rest hs => ?_, fun hs hturn => ?_⟩
  · rw [step_of_sequencer hs hlegal]
    exact sequencerTurn_of_stage rfl hi
  · rw [step_of_nil hs, defaultTurn_of_busy_or_nil hturn, takeTurn_sequencer hlegal]
    exact sequencerTurn_of_stage rfl hi

/-- Settles O7: the turn is the host's, whose next line is the access. -/
theorem hostStepRunsTheAccess : Obligations.HostStepRunsTheAccess := by
  intro s a rest i hlegal hline hi
  refine ⟨fun ts hs => ?_, fun hs hb => ?_⟩
  · rw [step_of_host hs hlegal]
    exact hostTurn_of_access hline hi
  · rw [step_of_nil hs, defaultTurn_of_idle_host hb (hline ▸ List.cons_ne_nil _ _), takeTurn_host hlegal]
    exact hostTurn_of_access hline hi

/-- Settles O8: the poll reads STATUS, whose bits 1 and 2 end the line. -/
theorem waitLinePollsStatus : Obligations.WaitLinePollsStatus := by
  intro s rest ts hlegal hline hs
  rw [step_of_host hs hlegal, ← hline]
  exact hostTurn_of_wait hline

/-! ### IDLE and FAULTED -/

/-- Settles O14: the two operations are the identity (log 1). -/
theorem idleAndFaultedChangeNothing : Obligations.IdleAndFaultedChangeNothing :=
  fun _ => ⟨rfl, rfl⟩

/-- Out of INIT to FINAL a legal stage code is IDLE or FAULTED (30_encoding.md R70). -/
theorem stage_of_not_busy {s : State} (hb : busy s = false) (hlegal : stageCodeReserved s.stage = false) :
    s.stage = stageIdle ∨ s.stage = stageFaulted := by
  have hrest : ∀ code : BitVec 4, ¬(1 ≤ code.toNat ∧ code.toNat ≤ 8) → stageCodeReserved code = false →
      code = stageIdle ∨ code = stageFaulted := by decide
  exact hrest _ (by rw [← busy_iff, hb]; decide) hlegal

/-- In IDLE and FAULTED the sequencer's turn changes nothing (30_encoding.md R71, log 1). -/
theorem sequencerTurn_eq_of_not_busy {s : State} (hb : busy s = false) (hlegal : stageCodeReserved s.stage = false) :
    sequencerTurn s = .next s := by
  rcases stage_of_not_busy hb hlegal with hs | hs <;> exact sequencerTurn_of_stage hs rfl

/-- Settles O9: where the block is busy the invariant puts N in the range of its stage, so that the operation runs; else
nothing changes. -/
theorem sequencerTurnAlwaysMoves : Obligations.SequencerTurnAlwaysMoves := by
  intro s hinv hordinary
  by_cases hb : busy s = true
  · obtain ⟨r, hr⟩ := hinv.running hb
    exact sequencerTurn_moves hr hordinary
  · exact ⟨s, sequencerTurn_eq_of_not_busy (by simpa using hb) hinv.stage⟩

/-! ### No step makes STAGE reserved -/

theorem dispatch_legal (n : Word) : stageCodeReserved (dispatch n) = false := by
  have hall : ∀ code ∈ [stageTail25, stageTail17, stageTail9, stageTail1, stageFinal],
      stageCodeReserved code = false := by decide
  exact hall _ (dispatch_mem n)

/-- A reading stage names a legal stage where its writes do: a ReadFault names FAULTED. -/
theorem readingStage_legal {α : Type} {s t : State} {p k : Nat} {r : ReadResult α} {writes : α → State}
    (h : readingStage s p k r writes = .next t) (hw : ∀ v, stageCodeReserved (writes v).stage = false) :
    stageCodeReserved t.stage = false := by
  rcases readingStage_next h with ⟨v, -, rfl⟩ | ⟨addr, -, rfl⟩
  · exact hw v
  · rfl

/-- Every instruction leaves a legal stage code legal. -/
theorem exec_legal {i : Instr} {s t : State} (h : exec i s = .next t) (hs : stageCodeReserved s.stage = false) :
    stageCodeReserved t.stage = false := by
  by_cases hi : isHostAccess i = true
  · rcases exec_hostAccess_cases hi h with ⟨-, rfl⟩ | ⟨da, l, sd, rd, rfl⟩
    · rfl
    · exact hs
  cases i with
  | idle | faulted =>
    cases h
    exact hs
  | init =>
    simp only [exec, execInit] at h
    split_ifs at h <;> cases h
    · rfl
    · rw [initLanes_stage]
      split_ifs
      · rfl
      · exact dispatch_legal _
  | block =>
    refine readingStage_legal h fun w => ?_
    rw [mixBlock_stage]
    split_ifs <;> rfl
  | fold =>
    cases h
    exact dispatch_legal s.n
  | tail25 | tail17 | tail9 => exact readingStage_legal h fun _ => dispatch_legal _
  | tail1 =>
    simp only [exec, execTail1] at h
    split at h
    · cases h
    · exact readingStage_legal h fun _ => rfl
  | final =>
    cases h
    rfl
  | start | wrDataAddr | wrLen | wrSeed | wrStatusIgnored | wrDigestIgnored | wrCauseIgnored | wrFaultAddrIgnored
  | rdCtrl | rdStatus | rdDataAddr | rdLen | rdSeed | rdDigest | rdCause | rdFaultAddr => exact absurd rfl hi

/-- No turn makes STAGE reserved (30_encoding.md R76). -/
theorem takeTurn_legal {turn : Turn} {s t : State} (h : takeTurn turn s = .next t)
    (hs : stageCodeReserved s.stage = false) : stageCodeReserved t.stage = false := by
  rcases takeTurn_next h with ⟨-, rfl⟩ | ⟨-, ⟨-, hseq⟩ | ⟨-, hhost⟩ | ⟨addr, byte, -, rfl⟩⟩
  · rfl
  · obtain ⟨i, -, hi⟩ := sequencerTurn_next hseq
    exact exec_legal hi hs
  · rcases hostTurn_cases hhost with ⟨-, rest, rfl⟩ | ⟨da, l, sd, rd, lines, rfl⟩
    · rfl
    · exact hs
  · rwa [storeByte_stage]

/-- Settles O5: each turn leaves STAGE legal, and where it is reserved only reset is not refused. -/
theorem reservedStagesAreRefusedAndUnreachable : Obligations.ReservedStagesAreRefusedAndUnreachable := by
  refine ⟨fun s t hs h => ?_, rfl, fun s lo hi hturn => ?_⟩
  · rw [step, nextTurn_snd] at h
    exact takeTurn_legal h hs
  · rw [step, nextTurn_snd]
    exact takeTurn_of_reserved (by simp [stageCodeReserved, lo, hi]) hturn

/-! ### Which turns move STAGE -/

/-- The only host access that moves STAGE is a START with bit 0 set, which is accepted in IDLE (42_host_and_init.md R120). -/
theorem exec_hostAccess_moves_stage {i : Instr} {s t : State} (hi : isHostAccess i = true) (h : exec i s = .next t)
    (hne : t.stage ≠ s.stage) :
    s.stage = stageIdle ∧ t = acceptStart s ∧ ∃ v, i = .start v ∧ v.getLsbD 0 = true := by
  cases i with
  | start v =>
    simp only [exec, execStart] at h
    split_ifs at h with hacc <;> cases h
    · simp only [Bool.and_eq_true, beq_iff_eq] at hacc
      exact ⟨hacc.2, rfl, v, rfl, hacc.1⟩
    · exact absurd rfl hne
  | idle | init | block | fold | tail25 | tail17 | tail9 | tail1 | final | faulted => cases hi
  | wrDataAddr | wrLen | wrSeed | wrStatusIgnored | wrDigestIgnored | wrCauseIgnored | wrFaultAddrIgnored | rdCtrl
  | rdStatus | rdDataAddr | rdLen | rdSeed | rdDigest | rdCause | rdFaultAddr =>
    cases h
    exact absurd rfl hne

/-- The host's turn moves STAGE by an accepted START on its next line only. -/
theorem hostTurn_moves_stage {s t : State} (h : hostTurn s = .next t) (hne : t.stage ≠ s.stage) :
    s.stage = stageIdle ∧ ∃ a rest v, s.program = .access a :: rest ∧
      decodeAccess s.platform.regBase a = .ok (.start v) ∧ v.getLsbD 0 = true ∧
        t = acceptStart { s with program := rest } := by
  rcases hostTurn_next h with ⟨-, rfl⟩ | ⟨rest, -, rfl⟩ | ⟨a, rest, i, hline, hi, he⟩
  · exact absurd rfl hne
  · exact absurd (by split_ifs <;> rfl) hne
  · obtain ⟨hs, rfl, v, rfl, hv⟩ := exec_hostAccess_moves_stage (isHostAccess_of_decodeAccess hi) he hne
    exact ⟨hs, a, rest, v, hline, hi, hv, rfl⟩

/-- A turn that moves STAGE is the sequencer's or a reset, out of another stage than IDLE, or the host's. -/
theorem takeTurn_moves_stage {turn : Turn} {s t : State} (h : takeTurn turn s = .next t) (hne : t.stage ≠ s.stage) :
    (s.stage ≠ stageIdle ∧ (turn = .sequencer ∨ turn = .reset)) ∨ (turn = .host ∧ hostTurn s = .next t) := by
  rcases takeTurn_next h with ⟨hturn, rfl⟩ | ⟨-, ⟨hturn, hseq⟩ | hhost | ⟨addr, byte, -, rfl⟩⟩
  · exact .inl ⟨fun hs => hne hs.symm, .inr hturn⟩
  · refine .inl ⟨fun hs => hne ?_, .inl hturn⟩
    rw [sequencerTurn_of_not_busy (by simp [busy, hs, stageIdle]) hseq]
  · exact .inr hhost
  · exact absurd (storeByte_stage s addr byte) hne

/-- Settles O42: of the turns that move STAGE only the host's START finds IDLE, and finds nothing else. -/
theorem stageMovesOnlyByItsAgents : Obligations.StageMovesOnlyByItsAgents := by
  intro s t h hne
  rw [step, nextTurn_snd] at h
  rcases takeTurn_moves_stage h hne with ⟨hs, hturn⟩ | ⟨hturn, hhost⟩
  · exact ⟨fun hidle => absurd hidle hs, fun _ => hturn⟩
  · obtain ⟨hs, a, rest, v, hline, hdec, hv, rfl⟩ := hostTurn_moves_stage hhost hne
    exact ⟨fun _ => ⟨hturn, ⟨a, rest, v, hline, hdec, hv⟩, rfl, rfl, rfl, rfl, rfl⟩, fun hidle => absurd hs hidle⟩

end Sys2Proof.Machine
end

section
/-! PROOFS. The HASH lines (30_encoding.md R79): every turn of the agent whose move the lines wait for brings the host one
turn nearer to the end of its program, and every other turn leaves it where it is. -/

namespace Sys2Proof.Machine

/-! ### Runs that count down -/

/-- `P n s` says that `n` turns count until a program has ended. The turn that counts is the default turn; any other one
of the `allowed` kind leaves `P n`. -/
structure CountsDown (allowed : Turn → Prop) (P : Nat → State → Prop) : Prop where
  reschedule : ∀ {n s} ts, P n s → P n { s with schedule := ts }
  counts : ∀ {n s}, P (n + 1) s → ∃ t, takeTurn (defaultTurn s) s = .next t ∧ P n t
  other : ∀ {n s turn}, P (n + 1) s → allowed turn → turn ≠ defaultTurn s →
    ∃ t, takeTurn turn s = .next t ∧ P (n + 1) t

/-- One step of a run that counts down: it counts, or it uses up a scheduled turn. -/
theorem CountsDown.exists_step {allowed : Turn → Prop} {P : Nat → State → Prop} (hp : CountsDown allowed P) {n : Nat}
    {s : State} (h : P (n + 1) s) (hs : ∀ turn ∈ s.schedule, allowed turn) :
    ∃ t, step s = .next t ∧ (P n t ∨ (P (n + 1) t ∧ s.schedule ≠ [])) := by
  rcases nextTurn_cases s with ⟨hnil, -⟩ | ⟨turn, ts, hcons, -⟩
  · obtain ⟨t, ht, hP⟩ := hp.counts h
    exact ⟨t, (step_of_nil hnil).trans ht, .inl hP⟩
  · have hP' := hp.reschedule ts h
    by_cases hturn : turn = defaultTurn s
    · obtain ⟨t, ht, hP⟩ := hp.counts hP'
      exact ⟨t, (step_of_cons hcons).trans (hturn ▸ ht), .inl hP⟩
    · obtain ⟨t, ht, hP⟩ := hp.other hP' (hs turn (hcons ▸ List.mem_cons_self ..)) hturn
      exact ⟨t, (step_of_cons hcons).trans ht, .inr ⟨hP, hcons ▸ List.cons_ne_nil _ _⟩⟩

/-- A run that counts down ends, within the turns that count and the scheduled ones. -/
theorem CountsDown.exists_run {allowed : Turn → Prop} {P : Nat → State → Prop} (hp : CountsDown allowed P)
    {bound n : Nat} {s : State} (hbound : s.schedule.length + n ≤ bound) (h : P n s)
    (hs : ∀ turn ∈ s.schedule, allowed turn) :
    ∃ k ≤ bound, ∃ t, Host.Core.run core k s = .next t ∧ P 0 t ∧
      ∀ j < k, ∃ u i, Host.Core.run core j s = .next u ∧ P (i + 1) u := by
  induction bound generalizing n s with
  | zero =>
    obtain rfl : n = 0 := by omega
    exact ⟨0, le_rfl, s, rfl, h, fun _ hj => absurd hj (Nat.not_lt_zero _)⟩
  | succ bound ih =>
    cases n with
    | zero => exact ⟨0, Nat.zero_le _, s, rfl, h, fun _ hj => absurd hj (Nat.not_lt_zero _)⟩
    | succ n =>
      obtain ⟨t, ht, hP⟩ := hp.exists_step h hs
      have htail := step_schedule ht
      have hlen := List.length_tail (l := s.schedule)
      have hallowed : ∀ turn ∈ t.schedule, allowed turn := fun turn hturn =>
        hs turn (List.mem_of_mem_tail (htail ▸ hturn))
      obtain ⟨k, hk, u, hrun, hu, hbefore⟩ : ∃ k ≤ bound, ∃ u, Host.Core.run core k t = .next u ∧ P 0 u ∧
          ∀ j < k, ∃ v i, Host.Core.run core j t = .next v ∧ P (i + 1) v := by
        rcases hP with hP | ⟨hP, hne⟩
        · exact ih (by rw [htail]; omega) hP hallowed
        · have hpos := List.length_pos_iff.mpr hne
          exact ih (by rw [htail]; omega) hP hallowed
      refine ⟨k + 1, Nat.succ_le_succ hk, u, (run_succ_of_step k ht).trans hrun, hu, fun j hj => ?_⟩
      cases j with
      | zero => exact ⟨s, n, rfl, h⟩
      | succ j =>
        rw [run_succ_of_step j ht]
        exact hbefore j (Nat.lt_of_succ_lt_succ hj)

/-! ### One line of the host -/

/-- A WR line performs the write (30_encoding.md R78). -/
theorem hostTurn_of_wr {s : State} {r : HostReg} {v : Word} {rest : List HostLine}
    (h : s.program = wr s.platform.regBase r v :: rest) :
    hostTurn s = exec (accessInstr .write r v) { s with program := rest } :=
  hostTurn_of_access h (access_legal _ .write r v).2

/-- A RD line performs the read (30_encoding.md R78). -/
theorem hostTurn_of_rd {s : State} {r : HostReg} {rest : List HostLine}
    (h : s.program = rd s.platform.regBase r :: rest) :
    hostTurn s = exec (accessInstr .read r 0) { s with program := rest } :=
  hostTurn_of_access h (access_legal _ .read r 0).2

/-- A poll of STATUS ends a WAIT line when the operation is complete or has faulted (30_encoding.md R78, 10_state.md R30). -/
theorem waitOver_status (s : State) : waitOver (status s) = (s.done || faultFlag s) := by
  have hdone : (status s).getLsbD 1 = s.done := getLsbD_status s 1
  have hfault : (status s).getLsbD 2 = faultFlag s := getLsbD_status s 2
  rw [waitOver, hdone, hfault]

/-- In IDLE with a line left the turn that the default order takes is the host's. -/
theorem idle_turns {s : State} (hs : s.stage = stageIdle) (hp : s.program ≠ []) :
    defaultTurn s = .host ∧ takeTurn .host s = hostTurn s ∧ takeTurn .sequencer s = .next s := by
  have hb : busy s = false := by simp [busy, hs, stageIdle]
  have hlegal : stageCodeReserved s.stage = false := hs ▸ rfl
  exact ⟨defaultTurn_of_idle_host hb hp, takeTurn_host hlegal,
    (takeTurn_sequencer hlegal).trans (sequencerTurn_eq_of_not_busy hb hlegal)⟩

/-! ### Before START -/

/-- The host has made the first `i` of the lines of HASH, the operation not started yet: the bytes stand in M, and `digest`
is their hash. -/
structure BeforeStart (m : Nat → Byte) (data len seed digest : Word) (i : Nat) (s : State) : Prop where
  idle : s.stage = stageIdle
  lines : s.program = (hashLines s.platform.regBase data len seed).drop i
  bytes : ∀ j < len.toNat, s.mem.read (data.toNat + j) = some (m j) ∧
    s.platform.hasSideEffects (data.toNat + j) = false ∧ data.toNat + j < 2 ^ s.platform.addrW
  hash : hash s.platform.rom m len seed = digest
  dataAddr : 1 ≤ i → s.dataAddr = data
  len : 2 ≤ i → s.len = len
  seed : 3 ≤ i → s.seed = seed

/-- The operation of HASH runs with `r` steps to go, and the host polls STATUS. -/
structure Hashing (m : Nat → Byte) (digest : Word) (r : Nat) (s : State) : Prop where
  runs : ∃ s₀, RunsReadable m s₀ r s ∧ digestToCome m s₀ = digest
  done : s.done = false
  lines : s.program = [.wait, rd s.platform.regBase .digest]

section BeforeStart
variable {m : Nat → Byte} {data len seed digest : Word} {i : Nat} {s : State}

theorem BeforeStart.program_ne_nil (h : BeforeStart m data len seed digest i s) (hi : i ≤ 3) : s.program ≠ [] := by
  rw [h.lines]
  exact List.ne_nil_of_length_pos (by simp [hashLines]; omega)

/-- The first three lines write the arguments (10_state.md R31). -/
theorem BeforeStart.write (h : BeforeStart m data len seed digest i s) (hi : i < 3) :
    ∃ t, hostTurn s = .next t ∧ BeforeStart m data len seed digest (i + 1) t := by
  match i with
  | 0 => exact ⟨_, hostTurn_of_wr h.lines, h.idle, rfl, h.bytes, h.hash, fun _ => rfl, nofun, nofun⟩
  | 1 => exact ⟨_, hostTurn_of_wr h.lines, h.idle, rfl, h.bytes, h.hash, fun _ => h.dataAddr le_rfl, fun _ => rfl, nofun⟩
  | 2 => exact ⟨_, hostTurn_of_wr h.lines, h.idle, rfl, h.bytes, h.hash, fun _ => h.dataAddr (by decide),
      fun _ => h.len le_rfl, fun _ => rfl⟩

/-- START begins an operation that reads the bytes which stand in M (20_memory.md R62, 42_host_and_init.md R120). -/
theorem BeforeStart.tracks (h : BeforeStart m data len seed digest 3 s) : Tracks m (acceptStart s) (acceptStart s) where
  start := by
    rw [acceptStart_ptr, BitVec.toNat_setWidth_of_le (by decide)]
    exact s.dataAddr.isLt
  stage := (by decide : stageInit ∉ [stageIdle, stageFaulted])
  reads j hj := by
    rw [acceptStart_ptr, BitVec.toNat_setWidth_of_le (by decide), h.dataAddr (by decide)]
    rw [acceptStart_lenL, h.len (by decide)] at hj
    obtain ⟨hread, hside, hlt⟩ := h.bytes j hj
    exact memRead_acceptStart hread hlt hside
  left := le_rfl
  bracket := rfl
  digest := rfl
  cause := rfl
  faultAddr := rfl

/-- The fourth line starts the operation (42_host_and_init.md R120). -/
theorem BeforeStart.start (h : BeforeStart m data len seed digest 3 s) :
    ∃ t, hostTurn s = .next t ∧ Hashing m digest (operationSteps len.toNat) t := by
  have hhost : hostTurn s = .next (acceptStart { s with program := [.wait, rd s.platform.regBase .digest] }) :=
    (hostTurn_of_wr (r := .ctrl) h.lines).trans (execStart_of_idle (s := { s with program := _ }) h.idle (by decide))
  refine ⟨_, hhost, ⟨acceptStart s, ⟨?_, ?_, ?_⟩, ?_⟩, rfl, rfl⟩
  · rw [← h.len (by decide)]
    exact .init rfl
  · intro a ha
    obtain rfl : a = ⟨.read, s.platform.regBase + HostReg.digest.offset, 64, 0⟩ := by simpa [rd] using ha
    exact (access_legal s.platform.regBase .read .digest 0).1
  · exact h.tracks.withHost s.dataAddr s.len s.seed s.readData _
  · rw [digestToCome_init m rfl, acceptStart_lenL, acceptStart_seedL, h.len (by decide), h.seed le_rfl]
    exact h.hash

end BeforeStart

/-! ### While the operation runs -/

/-- The operation of HASH has ended, with its digest. -/
structure Hashed (digest : Word) (s : State) : Prop where
  idle : s.stage = stageIdle
  done : s.done = true
  digest : s.digest = digest

section Hashing
variable {m : Nat → Byte} {digest : Word} {r : Nat} {s : State}

theorem Hashing.busy (h : Hashing m digest r s) : busy s = true := by
  obtain ⟨s₀, hruns, -⟩ := h.runs
  exact hruns.running.busy

/-- A sequencer step goes on with the operation, or ends it. -/
theorem Hashing.sequencer (h : Hashing m digest r s) :
    ∃ r' t, r = r' + 1 ∧ takeTurn .sequencer s = .next t ∧ t.program = [.wait, rd t.platform.regBase .digest] ∧
      (Hashing m digest r' t ∨ (r' = 0 ∧ Hashed digest t)) := by
  obtain ⟨s₀, hruns, hdigest⟩ := h.runs
  obtain ⟨r', t, rfl, ht, hend⟩ := (runsReadable_progresses m s₀).sequencer hruns
  obtain ⟨hp, -, hl, -⟩ := sequencerTurn_sameOutside ht
  have hlines : t.program = [.wait, rd t.platform.regBase .digest] := by rw [hl, hp, h.lines]
  refine ⟨r', t, rfl, (unlessReserved_of_busy h.busy _).trans ht, hlines, ?_⟩
  rcases hend with hruns' | ⟨hzero, hdelivered⟩
  · obtain ⟨_, _, hafter⟩ := sequencerTurn_afterStep hruns.running ht
    refine .inl ⟨⟨s₀, hruns', hdigest⟩, ?_, hlines⟩
    cases hafter with
    | running _ hdone => exact hdone.trans h.done
    | completed _ hstage => exact absurd hstage (stage_ne_idle_of_busy hruns'.running.busy)
    | faulted _ hdone => exact hdone.trans h.done
  · exact .inr ⟨hzero, hdelivered.stage, hdelivered.done, hdelivered.digest.trans hdigest⟩

/-- A poll of a running operation leaves it and the WAIT line. -/
theorem Hashing.poll (h : Hashing m digest r s) : ∃ t, takeTurn .host s = .next t ∧ Hashing m digest r t := by
  obtain ⟨s₀, hruns, hdigest⟩ := h.runs
  obtain ⟨t, ht, hruns'⟩ := (runsReadable_progresses m s₀).other hruns (.inr rfl) nofun
  have hstays : waitOver (status s) = false := by
    have hfault : s.stage ≠ stageFaulted := fun hs => by simpa [Machine.busy, hs, stageFaulted] using h.busy
    simp [waitOver_status, h.done, faultFlag, hfault]
  have hpoll := (unlessReserved_of_busy h.busy _).trans (hostTurn_of_wait h.lines)
  obtain rfl := Host.Outcome.next.inj (ht.symm.trans hpoll)
  refine ⟨_, ht, ⟨s₀, hruns', hdigest⟩, h.done, ?_⟩
  simp only [hstays, Bool.false_eq_true, if_false]
  exact h.lines

end Hashing

/-! ### The whole of HASH -/

/-- Where the host is in the lines of HASH, and how many turns count until it is through. -/
inductive HashPoint (m : Nat → Byte) (data len seed digest : Word) : Nat → State → Prop
  | before {i n : Nat} {s : State} (h : BeforeStart m data len seed digest i s) (hi : i ≤ 3)
      (hn : n + i = operationSteps len.toNat + 6) : HashPoint m data len seed digest n s
  | running {r : Nat} {s : State} (h : Hashing m digest r s) : HashPoint m data len seed digest (r + 2) s
  | waiting {s : State} (h : Hashed digest s) (lines : s.program = [.wait, rd s.platform.regBase .digest]) :
      HashPoint m data len seed digest 2 s
  | reading {s : State} (h : Hashed digest s) (lines : s.program = [rd s.platform.regBase .digest]) :
      HashPoint m data len seed digest 1 s
  | ended {s : State} (h : Hashed digest s) (lines : s.program = []) (value : s.readData = digest) :
      HashPoint m data len seed digest 0 s

section HashPoint
variable {m : Nat → Byte} {data len seed digest : Word} {n : Nat} {s : State}

/-- While turns count the operation runs, or the block is idle; and the host has a line left. -/
theorem HashPoint.lines_left (h : HashPoint m data len seed digest (n + 1) s) :
    s.program ≠ [] ∧ ((∃ r, n + 1 = r + 2 ∧ Hashing m digest r s) ∨ s.stage = stageIdle) := by
  cases h with
  | before h hi => exact ⟨h.program_ne_nil hi, .inr h.idle⟩
  | running h => exact ⟨h.lines ▸ List.cons_ne_nil _ _, .inl ⟨_, rfl, h⟩⟩
  | waiting h lines | reading h lines => exact ⟨lines ▸ List.cons_ne_nil _ _, .inr h.idle⟩

/-- At the end the last read has returned the digest. -/
theorem HashPoint.ended_of_zero (h : HashPoint m data len seed digest 0 s) :
    s.readData = digest ∧ s.done = true ∧ s.program = [] := by
  cases h with
  | before _ hi hn => omega
  | ended h lines value => exact ⟨value, h.done, lines⟩

/-- In IDLE each turn of the host makes one line. -/
theorem HashPoint.host (h : HashPoint m data len seed digest (n + 1) s) (hs : s.stage = stageIdle) :
    ∃ t, hostTurn s = .next t ∧ HashPoint m data len seed digest n t := by
  cases h with
  | @before i _ _ h hi hn =>
    obtain hlt | rfl := Nat.lt_or_eq_of_le hi
    · obtain ⟨t, ht, h'⟩ := h.write hlt
      exact ⟨t, ht, .before h' hlt (by omega)⟩
    · obtain ⟨t, ht, h'⟩ := h.start
      obtain rfl : n = operationSteps len.toNat + 2 := by omega
      exact ⟨t, ht, .running h'⟩
  | running h => exact absurd hs (stage_ne_idle_of_busy h.busy)
  | waiting h lines =>
    refine ⟨_, hostTurn_of_wait lines, .reading ⟨h.idle, h.done, h.digest⟩ ?_⟩
    rw [waitOver_status, h.done, Bool.true_or, if_pos rfl]
    rfl
  | reading h lines => exact ⟨_, hostTurn_of_rd lines, .ended ⟨h.idle, h.done, h.digest⟩ rfl h.digest⟩

theorem HashPoint.reschedule (ts : List Turn) (h : HashPoint m data len seed digest n s) :
    HashPoint m data len seed digest n { s with schedule := ts } := by
  cases h with
  | before h hi hn => exact .before ⟨h.idle, h.lines, h.bytes, h.hash, h.dataAddr, h.len, h.seed⟩ hi hn
  | running h =>
    obtain ⟨s₀, hruns, hdigest⟩ := h.runs
    exact .running ⟨⟨s₀, (runsReadable_progresses m s₀).reschedule ts hruns, hdigest⟩, h.done, h.lines⟩
  | waiting h lines => exact .waiting ⟨h.idle, h.done, h.digest⟩ lines
  | reading h lines => exact .reading ⟨h.idle, h.done, h.digest⟩ lines
  | ended h lines value => exact .ended ⟨h.idle, h.done, h.digest⟩ lines value

end HashPoint

/-- In any order of sequencer and host turns HASH counts down: the sequencer's turns count while the operation runs, the
host's before and after. -/
theorem hashPoint_countsDown (m : Nat → Byte) (data len seed digest : Word) :
    CountsDown (fun turn => turn = .sequencer ∨ turn = .host) (HashPoint m data len seed digest) where
  reschedule ts h := h.reschedule ts
  counts {n s} h := by
    obtain ⟨hlines, ⟨r, hr, hrun⟩ | hs⟩ := h.lines_left
    · rw [defaultTurn_of_busy_or_nil (.inl hrun.busy)]
      obtain ⟨r', t, rfl, ht, hl, hgo | ⟨rfl, hend⟩⟩ := hrun.sequencer
      · obtain rfl : n = r' + 2 := by omega
        exact ⟨t, ht, .running hgo⟩
      · obtain rfl : n = 2 := by omega
        exact ⟨t, ht, .waiting hend hl⟩
    · obtain ⟨hdefault, hhost, -⟩ := idle_turns hs hlines
      rw [hdefault, hhost]
      exact h.host hs
  other {n s turn} h hturn hne := by
    obtain ⟨hlines, ⟨r, hr, hrun⟩ | hs⟩ := h.lines_left
    · rw [defaultTurn_of_busy_or_nil (.inl hrun.busy)] at hne
      obtain rfl := hturn.resolve_left hne
      obtain ⟨t, ht, hrun'⟩ := hrun.poll
      exact ⟨t, ht, hr ▸ .running hrun'⟩
    · obtain ⟨hdefault, -, hseq⟩ := idle_turns hs hlines
      obtain rfl := hturn.resolve_right (hdefault ▸ hne)
      exact ⟨s, hseq, h⟩

/-- Settles O53: HASH counts down from its six lines and the S(len) steps of the operation; WAIT and RD are the two that
follow it. -/
theorem hashLinesReturnTheHash : Obligations.HashLinesReturnTheHash := by
  intro s m data len seed hs hturns hlines hbytes
  have hstart : HashPoint m data len seed (hash s.platform.rom m len seed) (operationSteps len.toNat + 6) s :=
    .before (i := 0) ⟨hs, hlines, hbytes, rfl, nofun, nofun, nofun⟩ (by decide) rfl
  obtain ⟨k, hk, t, hrun, hend, hbefore⟩ :=
    (hashPoint_countsDown m data len seed _).exists_run le_rfl hstart hturns
  obtain ⟨hvalue, hdone, hprogram⟩ := hend.ended_of_zero
  refine ⟨k, by omega, t, hrun, hvalue, hdone, hprogram, fun j hj => ?_⟩
  obtain ⟨u, i, hu, hpoint⟩ := hbefore j hj
  exact ⟨u, hu, hpoint.lines_left.1⟩

end Sys2Proof.Machine
end

section
/-! PROOFS. The byte loader: what LoadLE gives bit by bit, that it looks at its own bytes only, and tail64 in and
outside its domain (40_byte_loader.md R100 to R104). -/

namespace Sys2Proof.Machine

/-! ### LoadLE (R100) -/

theorem toNat_leWord (m : Nat → Byte) (p : Nat) {k : Nat} (hk : k ≤ 8) : (leWord m p k).toNat = leSum m p k := by
  have hpow : 2 ^ (8 * k) ≤ 2 ^ 64 := Nat.pow_le_pow_right (by decide) (by omega)
  rw [leWord, BitVec.toNat_ofNat, Nat.mod_eq_of_lt ((leSum_lt m p k).trans_le hpow)]

/-- Bit `b` of a little-endian word is bit `b % 8` of its byte `b / 8`, and 0 past the last byte (20_memory.md R53). -/
theorem getLsbD_leWord (m : Nat → Byte) (p : Nat) {k : Nat} (hk : k ≤ 8) (b : Nat) :
    (leWord m p k).getLsbD b = (decide (b < 8 * k) && (m (p + b / 8)).getLsbD (b % 8)) := by
  induction k with
  | zero => simp [leWord, leSum]
  | succ k ih =>
    rw [leWord_succ m p (by omega), BitVec.getLsbD_or, ih (by omega), BitVec.getLsbD_shiftLeft, BitVec.getLsbD_setWidth]
    obtain hlow | ⟨hlower, hupper⟩ | hhigh : b < 8 * k ∨ (8 * k ≤ b ∧ b < 8 * (k + 1)) ∨ 8 * (k + 1) ≤ b := by
      omega
    · simp [hlow, show b < 8 * (k + 1) by omega]
    · obtain ⟨hbyte, hbit⟩ : b / 8 = k ∧ b - 8 * k = b % 8 := by omega
      simp [hbyte, hbit, hupper, show ¬b < 8 * k by omega, show b < 64 by omega, show b % 8 < 64 by omega]
    · have hzero : (m (p + k)).getLsbD (b - 8 * k) = false := BitVec.getLsbD_of_ge _ _ (by omega)
      simp [hzero, show ¬b < 8 * k by omega, show ¬b < 8 * (k + 1) by omega]

/-- Settles O28: LoadLE of readable bytes is their little-endian word, whose value and bits are known. -/
theorem loadIsLittleEndian : Obligations.LoadIsLittleEndian := by
  intro s p k m hk hreads
  have hload : loadLE s p k = .ok (leWord m 0 k) := loadLE_of_reads hk (by simpa [InputReads] using hreads)
  refine ⟨leWord m 0 k, hload, toNat_leWord m 0 hk, fun i hi j hj => ?_, fun j hj => ?_⟩
  · obtain ⟨hbyte, hbit⟩ : (8 * i + j) / 8 = i ∧ (8 * i + j) % 8 = j := by omega
    rw [getLsbD_leWord m 0 hk, hbyte, hbit, decide_eq_true (by omega), Bool.true_and, Nat.zero_add]
  · rw [getLsbD_leWord m 0 hk, decide_eq_false (by omega), Bool.false_and]

theorem loadLE_congr {s t : State} {p k : Nat} (h : ∀ i < k, memRead s (p + i) = memRead t (p + i)) :
    loadLE s p k = loadLE t p k := by
  induction k with
  | zero => rfl
  | succ k ih => rw [loadLE, loadLE, ih fun i hi => h i (by omega), h k (by omega)]

/-! ### tail64 (R104) -/

theorem tail64_of_domain (s : State) (p : Nat) {n : Nat} (lo : 1 ≤ n) (hi : n ≤ 8) :
    tail64 s p n = some (loadLE s p n) :=
  if_pos ⟨lo, hi⟩

theorem tail64_outside_domain (s : State) (p : Nat) {n : Nat} (h : n = 0 ∨ 8 < n) : tail64 s p n = none :=
  if_neg (by omega)

/-- Settles O29: two states that agree on the k bytes give the same LoadLE, and tail64 is LoadLE on its domain. -/
theorem loadReadsOnlyItsBytes : Obligations.LoadReadsOnlyItsBytes := by
  intro s t p k h
  have hload := loadLE_congr h
  exact ⟨hload, by rw [tail64, tail64, hload]⟩

/-- Settles O20: tail64 has no result there, and TAIL1 answers with the refusal. -/
theorem tailCountOutsideDomainIsRefused : Obligations.TailCountOutsideDomainIsRefused := by
  intro s h
  rw [show exec .tail1 s = execTail1 s from rfl, execTail1, tail64_outside_domain s _ h]

/-- Settles O31: the widths are LoadLE's, and tail64 is LoadLE inside its domain and nothing outside. -/
theorem loaderWidths : Obligations.LoaderWidths := fun s p =>
  ⟨rfl, rfl, rfl, rfl, tail64_of_domain s p (by decide) le_rfl, tail64_outside_domain s p (.inl rfl),
    fun _ lo hi => tail64_of_domain s p lo hi, fun _ h => tail64_outside_domain s p (.inr h)⟩

end Sys2Proof.Machine
end

section
/-! PROOFS. The mixing primitives: the right rotation, the exact 128-bit product with its two halves, its form by four
partial products, and mix (41_mixing_primitives.md R110 to R113). -/

namespace Sys2Proof.Machine

/-! ### rotr (R110) -/

theorem rotr_zero (v : Word) : rotr v 0 = v :=
  if_pos rfl

theorem rotr_of_pos (v : Word) {s : Nat} (hs : 1 ≤ s) : rotr v s = (v >>> s) ||| (v <<< (64 - s)) :=
  if_neg (by omega)

/-- Inside its domain the two-shift formula is the library's rotation. -/
theorem rotr_eq_rotateRight (v : Word) {s : Nat} (hs : s ≤ 63) : rotr v s = v.rotateRight s := by
  have hmod : s % 64 = s := Nat.mod_eq_of_lt (by omega)
  rw [BitVec.rotateRight_def, hmod]
  obtain rfl | hpos : s = 0 ∨ 1 ≤ s := by omega
  · simp [rotr_zero]
  · exact rotr_of_pos v hpos

theorem getLsbD_rotr (v : Word) {s i : Nat} (hs : s ≤ 63) (hi : i < 64) :
    (rotr v s).getLsbD i = v.getLsbD ((i + s) % 64) := by
  rw [rotr_eq_rotateRight v hs, BitVec.getLsbD_rotateRight_of_lt (by omega)]
  obtain hstays | hwraps : i < 64 - s ∨ 64 - s ≤ i := by omega
  · simp [hstays, show (i + s) % 64 = s + i by omega]
  · simp [hi, Nat.not_lt.mpr hwraps, show (i + s) % 64 = i - (64 - s) by omega]

/-- Settles O32: the model's two branches are the formula, and the bits are those of the rotation. -/
theorem rotrRotatesRight : Obligations.RotrRotatesRight := by
  intro v s hs
  refine ⟨?_, rotr_of_pos v, fun i hi => getLsbD_rotr v hs hi⟩
  rintro rfl
  exact rotr_zero v

/-! ### The exact product and mux64 (R7, R112) -/

theorem toNat_mul_lt (v p : Word) : v.toNat * p.toNat < 2 ^ 128 :=
  calc v.toNat * p.toNat < 2 ^ 64 * 2 ^ 64 := Nat.mul_lt_mul'' v.isLt p.isLt
    _ = 2 ^ 128 := by decide

theorem toNat_mul128 (v p : Word) : (mul128 v p).toNat = v.toNat * p.toNat := by
  have hle : 64 ≤ 128 := by decide
  rw [mul128, BitVec.toNat_mul, BitVec.toNat_setWidth_of_le hle, BitVec.toNat_setWidth_of_le hle,
    Nat.mod_eq_of_lt (toNat_mul_lt v p)]

theorem toNat_ofNat_append_ofNat {hi lo : Nat} (hlo : lo < 2 ^ 64) (hbound : hi * 2 ^ 64 + lo < 2 ^ 128) :
    (BitVec.ofNat 64 hi ++ BitVec.ofNat 64 lo).toNat = hi * 2 ^ 64 + lo := by
  have hhi : hi < 2 ^ 64 := by omega
  rw [BitVec.toNat_append, BitVec.toNat_ofNat, BitVec.toNat_ofNat, Nat.mod_eq_of_lt hhi, Nat.mod_eq_of_lt hlo,
    ← Nat.shiftLeft_add_eq_or_of_lt hlo, Nat.shiftLeft_eq]

/-- The two halves of a product, once known as numbers, are the halves of the 128-bit word. -/
theorem mul128_eq_append {v p : Word} {hi lo : Nat} (h : v.toNat * p.toNat = hi * 2 ^ 64 + lo) (hlo : lo < 2 ^ 64) :
    mul128 v p = BitVec.ofNat 64 hi ++ BitVec.ofNat 64 lo := by
  apply BitVec.eq_of_toNat_eq
  rw [toNat_mul128, h, toNat_ofNat_append_ofNat hlo (h ▸ toNat_mul_lt v p)]

theorem mux64_of_halves {v p : Word} {hi lo : Nat} (h : v.toNat * p.toNat = hi * 2 ^ 64 + lo) (hlo : lo < 2 ^ 64) :
    mux64 v p = BitVec.ofNat 64 hi ^^^ BitVec.ofNat 64 lo := by
  rw [mux64, mul128_eq_append h hlo, BitVec.extractLsb'_append_eq_left, BitVec.extractLsb'_append_eq_right]

theorem mux64_zero_left (p : Word) : mux64 0 p = 0 :=
  mux64_of_halves (hi := 0) (lo := 0) (by simp) (by decide)

theorem mux64_one_left (p : Word) : mux64 1 p = p := by
  rw [mux64_of_halves (hi := 0) (lo := p.toNat) (by simp) p.isLt]
  simp

/-- The high half is `p - 1`, the low half is `-p`, which is its complement (R112). -/
theorem mux64_allOnes_left {p : Word} (hp : 1 ≤ p.toNat) : mux64 (BitVec.allOnes 64) p = BitVec.allOnes 64 := by
  have hlt : p.toNat < 2 ^ 64 := p.isLt
  have hproduct : (BitVec.allOnes 64).toNat * p.toNat = (p.toNat - 1) * 2 ^ 64 + (2 ^ 64 - p.toNat) := by
    rw [BitVec.toNat_allOnes]
    omega
  have hcomplement : BitVec.ofNat 64 (2 ^ 64 - p.toNat) = ~~~BitVec.ofNat 64 (p.toNat - 1) := by
    apply BitVec.eq_of_toNat_eq
    rw [BitVec.toNat_not, BitVec.toNat_ofNat, BitVec.toNat_ofNat]
    omega
  rw [mux64_of_halves hproduct (by omega), hcomplement, ← BitVec.not_xor_right, BitVec.xor_self, BitVec.not_zero]

/-- Settles O34: the formula and each corner case name the two halves of one product. -/
theorem muxFoldsTheExactProduct : Obligations.MuxFoldsTheExactProduct := fun v p =>
  ⟨mux64_of_halves (Nat.div_add_mod' (v.toNat * p.toNat) (2 ^ 64)).symm (Nat.mod_lt _ (by decide)), mux64_zero_left p,
    mux64_one_left p, mux64_allOnes_left, mux64_of_halves (hi := 1) (lo := 0) (by decide) (by decide)⟩

/-! ### Four partial products (R113) -/

theorem toNat_eq_halves (v : Word) :
    v.toNat = (v.extractLsb' 32 32).toNat * 2 ^ 32 + (v.extractLsb' 0 32).toNat := by
  have hlt : v.toNat < 2 ^ 64 := v.isLt
  rw [BitVec.extractLsb'_toNat, BitVec.extractLsb'_toNat, Nat.shiftRight_eq_div_pow, Nat.shiftRight_zero]
  omega

/-- The carries of R113 lose nothing: `mid` is the sum in column 2^32, its low half stays and its high half moves up. -/
theorem partialProducts_carry (ll lh hl hh : Nat) :
    let mid := ll / 2 ^ 32 + lh % 2 ^ 32 + hl % 2 ^ 32
    (hh + lh / 2 ^ 32 + hl / 2 ^ 32 + mid / 2 ^ 32) * 2 ^ 64 + (mid % 2 ^ 32 * 2 ^ 32 + ll % 2 ^ 32) =
      hh * 2 ^ 64 + (lh + hl) * 2 ^ 32 + ll := by
  omega

/-- The form of R113 joins two numbers that are the halves of the exact product. -/
theorem mul128Partial_eq_mul128 (v p : Word) : mul128Partial v p = mul128 v p := by
  refine (mul128_eq_append ?_ (by omega)).symm
  rw [partialProducts_carry, toNat_eq_halves v, toNat_eq_halves p]
  ring

/-- Settles O35: the halves R113 builds add up to the product, so they are the halves of mul128. -/
theorem partialProductsGiveTheExactProduct : Obligations.PartialProductsGiveTheExactProduct := fun v p =>
  ⟨mul128Partial_eq_mul128 v p ▸ toNat_mul128 v p, mul128Partial_eq_mul128 v p⟩

/-! ### mix (R111) -/

/-- The word product is the exact product cut to 64 bits (R6, R114). -/
theorem mul_eq_ofNat (v p : Word) : v * p = BitVec.ofNat 64 (v.toNat * p.toNat) :=
  BitVec.eq_of_toNat_eq (by rw [BitVec.toNat_mul, BitVec.toNat_ofNat])

theorem mix_zero_left (p : Word) : mix 0 p = 0 := by
  rw [mix, show 0 * p = 0 from BitVec.zero_mul]
  decide

/-- Settles O33: the word product is the truncated exact product, and s0 is 41. -/
theorem mixScrambles : Obligations.MixScrambles := fun v p =>
  ⟨by rw [mix, mul_eq_ofNat, s0], mix_zero_left p⟩

end Sys2Proof.Machine
end

section
/-! PROOFS. Which accesses the host's turn refuses, what INIT does, and what each host access does (42_host_and_init.md R120
to R124). -/

namespace Sys2Proof.Machine

/-! ### Illegal accesses (R124) -/

/-- A bus word is refused for its offset only (30_encoding.md R75). -/
theorem decodeBus_eq_error {word : BitVec 71} {e : DecodeError} (h : decodeBus word = .error e) :
    e = .misalignedOffset ((busKey word).toNat % 64) := by
  unfold decodeBus at h
  split at h <;> cases h
  rfl

/-- In the window the offset is the low six bits of the key (30_encoding.md R80). -/
theorem toNat_busKey_busWordOf (dir : Direction) {offset : Nat} (data : Word) (h : offset < 64) :
    (busKey (busWordOf dir offset data)).toNat = (directionBit dir).toNat * 64 + offset := by
  rw [busWordOf, busKey_packBus, toNat_accessKey dir h]

/-- An access without an instruction is named by its width, its address or its offset (log 16). -/
theorem decodeAccess_eq_error {base : Nat} {a : BusAccess} {e : DecodeError} (h : decodeAccess base a = .error e) :
    e = .illegalWidth a.width ∨ e = .outsideWindow a.addr ∨ e = .misalignedOffset (a.addr - base) := by
  unfold decodeAccess at h
  split_ifs at h with hwidth hwindow
  · cases h
    exact .inl rfl
  · cases h
    exact .inr (.inl rfl)
  · have hoffset : a.addr - base < 64 := by omega
    have hmod : ((directionBit a.dir).toNat * 64 + (a.addr - base)) % 64 = a.addr - base := by omega
    rw [decodeBus_eq_error h, toNat_busKey_busWordOf a.dir a.data hoffset, hmod]
    exact .inr (.inr rfl)

/-- R124's conditions on an access: width, window, alignment. -/
theorem access_wf_iff {base : Nat} {a : BusAccess} :
    a.wf base = true ↔ a.width = 64 ∧ base ≤ a.addr ∧ a.addr < base + 0x40 ∧ (a.addr - base) % 8 = 0 := by
  simp only [BusAccess.wf, Bool.and_eq_true, beq_iff_eq, decide_eq_true_eq]
  tauto

/-- An access with an instruction is legal. -/
theorem wf_of_decodeAccess {base : Nat} {a : BusAccess} {i : Instr} (h : decodeAccess base a = .ok i) :
    a.wf base = true := by
  unfold decodeAccess at h
  split_ifs at h with hwidth hwindow
  have hkey := key_aligned_of_decodeBus h
  rw [toNat_busKey_busWordOf a.dir a.data (by omega)] at hkey
  rw [access_wf_iff]
  omega

/-- The host's turn refuses a line whose access has no instruction. -/
theorem hostTurn_of_illegal {s : State} {a : BusAccess} {rest : List HostLine} {e : DecodeError}
    (h : s.program = .access a :: rest) (he : decodeAccess s.platform.regBase a = .error e) :
    hostTurn s = .refused (refusalOf e) := by
  simp only [hostTurn, h, he]

/-- A host access always has a next state: none of them faults or is refused. -/
theorem exec_hostAccess_next {i : Instr} (s : State) (hi : isHostAccess i = true) : ∃ t, exec i s = .next t := by
  cases i with
  | idle | init | block | fold | tail25 | tail17 | tail9 | tail1 | final | faulted => cases hi
  | start | wrDataAddr | wrLen | wrSeed | wrStatusIgnored | wrDigestIgnored | wrCauseIgnored | wrFaultAddrIgnored
  | rdCtrl | rdStatus | rdDataAddr | rdLen | rdSeed | rdDigest | rdCause | rdFaultAddr => exact ⟨_, rfl⟩

/-- Settles O4: an access decodes exactly where it is legal, each way to fail has its refusal, and no access that decodes
stops the model. -/
theorem illegalAccessesAreRefused : Obligations.IllegalAccessesAreRefused := by
  intro s a rest ts hlegal hline hs
  rw [step_of_host hs hlegal]
  refine ⟨fun hbad => ?_, fun hwidth lo hi halign => ?_⟩
  · cases hdec : decodeAccess s.platform.regBase a with
    | ok i =>
      obtain ⟨hwidth, lo, hi, halign⟩ := access_wf_iff.mp (wf_of_decodeAccess hdec)
      omega
    | error e =>
      rw [hostTurn_of_illegal (s := { s with schedule := ts }) hline hdec]
      rcases decodeAccess_eq_error hdec with rfl | rfl | rfl
      · exact .inl rfl
      · exact .inr (.inl rfl)
      · exact .inr (.inr rfl)
  · obtain ⟨i, hdec⟩ := decodeAccess_of_wf (access_wf_iff.mpr ⟨hwidth, lo, hi, halign⟩)
    rw [hostTurn_of_access (s := { s with schedule := ts }) hline hdec]
    obtain ⟨t, ht⟩ :=
      exec_hostAccess_next { s with program := rest, schedule := ts } (isHostAccess_of_decodeAccess hdec)
    exact ⟨i, t, hdec, ht⟩

/-! ### INIT (R121) -/

/-- The range check fails for a non-empty input that ends above the address space (60_exceptions.md R162). -/
theorem outOfRange_iff {s : State} :
    outOfRange s = true ↔ 0 < s.lenL.toNat ∧ 2 ^ s.platform.addrW < s.ptr.toNat + s.lenL.toNat := by
  simp [outOfRange]

theorem execInit_of_outOfRange {s : State} (h : outOfRange s = true) :
    exec .init s = .next (raiseFault s .rangeFault s.ptr.toNat) :=
  if_pos h

theorem execInit_of_inRange {s : State} (h : ¬outOfRange s = true) : exec .init s = .next (initLanes s) :=
  if_neg h

/-- Settles O15: the two clauses are the two answers of the range check. -/
theorem initChecksTheRangeAndSetsTheLanes : Obligations.InitChecksTheRangeAndSetsTheLanes := by
  refine fun s => ⟨fun hfits => execInit_of_inRange ?_, fun hlen hend => ?_⟩
  · rw [outOfRange_iff]
    omega
  · exact execInit_of_outOfRange (outOfRange_iff.mpr ⟨hlen, hend⟩)

/-! ### The host's accesses (R120, R123) -/

/-- START without bit 0, or out of IDLE, is ignored (R120). -/
theorem execStart_ignored {s : State} {v : Word} (h : v.getLsbD 0 = true → s.stage ≠ stageIdle) :
    exec (.start v) s = .next s := by
  have hacc : ¬(v.getLsbD 0 && s.stage == stageIdle) = true := by simpa using h
  exact congrArg Host.Outcome.next (if_neg hacc)

/-- Settles O24: bit 0 and IDLE are the two conditions of START acceptance. -/
theorem startLatchesTheArguments : Obligations.StartLatchesTheArguments := by
  refine fun s v => ⟨fun hv hs => execStart_of_idle hs hv, fun h => execStart_ignored fun hv => ?_⟩
  rcases h with hbit | hs
  · exact absurd hv (Bool.eq_false_iff.mp hbit)
  · exact hs

/-- Settles O25: each write is its update of the state. -/
theorem hostWritesHaveTheirEffects : Obligations.HostWritesHaveTheirEffects :=
  fun _ _ => ⟨⟨rfl, rfl, rfl⟩, rfl, rfl, rfl, rfl⟩

/-- Settles O26: each read returns its register; CAUSE's eight bits are zero-extended. -/
theorem hostReadsReturnTheRegisters : Obligations.HostReadsReturnTheRegisters := by
  intro s
  refine ⟨rfl, rfl, rfl, rfl, rfl, rfl, ?_, rfl⟩
  rw [BitVec.ofNat_toNat]
  rfl

end Sys2Proof.Machine
end

section
/-! PROOFS. Host accesses commute with the stages of a running operation (42_host_and_init.md R125). -/

namespace Sys2Proof.Machine

/-! ### What a stage makes of the host's side of the state (R125, 10_state.md R31) -/

/-- STAGE names no host access (30_encoding.md R70). -/
theorem isHostAccess_of_decodeStage {code : BitVec 4} {j : Instr} (h : decodeStage code = .ok j) :
    isHostAccess j = false := by
  unfold decodeStage at h
  split at h <;> cases h <;> rfl

section WithHost
variable {s u : State} {da l sd rd : Word} {lines : List HostLine}

@[simp] theorem withHost_ptr : (withHost s da l sd rd lines).ptr = s.ptr := rfl
@[simp] theorem withHost_n : (withHost s da l sd rd lines).n = s.n := rfl

@[simp] theorem loadLE_withHost (p k : Nat) : loadLE (withHost s da l sd rd lines) p k = loadLE s p k :=
  loadLE_congr fun _ _ => rfl

@[simp] theorem loadBlock_withHost (p : Nat) : loadBlock (withHost s da l sd rd lines) p = loadBlock s p := by
  simp only [loadBlock, load64, loadLE_withHost]

@[simp] theorem tail64_withHost (p n : Nat) : tail64 (withHost s da l sd rd lines) p n = tail64 s p n := by
  simp only [tail64, loadLE_withHost]

/-- A reading stage does the same whatever the host's side holds, where its load and its writes do. -/
theorem readingStage_withHost {α : Type} {p k : Nat} {r r' : ReadResult α} {writes writes' : α → State}
    (h : readingStage s p k r writes = .next u) (hr : r' = r)
    (hw : ∀ v, writes' v = withHost (writes v) da l sd rd lines) :
    readingStage (withHost s da l sd rd lines) p k r' writes' = .next (withHost u da l sd rd lines) := by
  rcases readingStage_next h with ⟨v, rfl, rfl⟩ | ⟨addr, rfl, rfl⟩ <;> subst hr
  · simp only [readingStage, hw]
    rfl
  · rfl

variable (da l sd rd lines)

/-- A stage neither reads nor writes the host's side of the state. -/
theorem exec_stage_withHost {j : Instr} (hj : isHostAccess j = false) (h : exec j s = .next u) :
    exec j (withHost s da l sd rd lines) = .next (withHost u da l sd rd lines) := by
  cases j with
  | idle | fold | final | faulted =>
    cases h
    rfl
  | init =>
    by_cases hr : outOfRange s = true
    · cases (execInit_of_outOfRange hr).symm.trans h
      exact execInit_of_outOfRange (s := withHost s da l sd rd lines) hr
    · cases (execInit_of_inRange hr).symm.trans h
      exact execInit_of_inRange (s := withHost s da l sd rd lines) hr
  | block => exact readingStage_withHost h (loadBlock_withHost _) fun _ => rfl
  | tail25 | tail17 | tail9 => exact readingStage_withHost h (loadLE_withHost _ _) fun _ => rfl
  | tail1 =>
    simp only [exec, execTail1, withHost_ptr, withHost_n, tail64_withHost] at h ⊢
    split at h
    · cases h
    · exact readingStage_withHost h rfl fun _ => rfl
  | start | wrDataAddr | wrLen | wrSeed | wrStatusIgnored | wrDigestIgnored | wrCauseIgnored | wrFaultAddrIgnored
  | rdCtrl | rdStatus | rdDataAddr | rdLen | rdSeed | rdDigest | rdCause | rdFaultAddr => cases hj

/-- A stage leaves the host's side of the state as it is (10_state.md R31). -/
theorem exec_stage_keeps_host {j : Instr} (hj : isHostAccess j = false) (h : exec j s = .next u) :
    withHost u s.dataAddr s.len s.seed s.readData s.program = u :=
  Host.Outcome.next.inj ((exec_stage_withHost s.dataAddr s.len s.seed s.readData s.program hj h).symm.trans h)

end WithHost

/-! ### Which stage ends in IDLE -/

/-- A reading stage that answers IDLE has written it: a ReadFault names FAULTED. -/
theorem readingStage_ne_idle {α : Type} {s t : State} {p k : Nat} {r : ReadResult α} {writes : α → State}
    (h : readingStage s p k r writes = .next t) (hw : ∀ v, (writes v).stage ≠ stageIdle) : t.stage ≠ stageIdle := by
  rcases readingStage_next h with ⟨v, -, rfl⟩ | ⟨addr, -, rfl⟩
  · exact hw v
  · exact (by decide : stageFaulted ≠ stageIdle)

theorem dispatch_ne_idle (n : Word) : dispatch n ≠ stageIdle := fun h => dispatch_runs n (by simp [h])

/-- Of the stages of a running operation only FINAL names IDLE next (10_state.md R25, 45_finalizer.md R150). -/
theorem stage_final_of_next_idle {s u : State} {j : Instr} (hb : busy s = true) (hj : decodeStage s.stage = .ok j)
    (h : exec j s = .next u) (hu : u.stage = stageIdle) : s.stage = stageFinal := by
  have hcode := decodeStage_eq_ok hj
  contrapose! hu
  cases j with
  | idle | faulted =>
    cases h
    exact stage_ne_idle_of_busy hb
  | final => exact absurd (Encoded.stage.inj hcode).symm hu
  | init =>
    by_cases hr : outOfRange s = true
    · cases (execInit_of_outOfRange hr).symm.trans h
      exact (by decide : stageFaulted ≠ stageIdle)
    · cases (execInit_of_inRange hr).symm.trans h
      rw [initLanes_stage]
      split_ifs
      · decide
      · exact dispatch_ne_idle _
  | block =>
    refine readingStage_ne_idle h fun w => ?_
    rw [mixBlock_stage]
    split_ifs <;> decide
  | fold =>
    cases h
    exact dispatch_ne_idle s.n
  | tail25 | tail17 | tail9 => exact readingStage_ne_idle h fun _ => dispatch_ne_idle _
  | tail1 => exact readingStage_ne_idle (execTail1_next h) fun _ => (by decide : stageFinal ≠ stageIdle)
  | start | wrDataAddr | wrLen | wrSeed | wrStatusIgnored | wrDigestIgnored | wrCauseIgnored | wrFaultAddrIgnored
  | rdCtrl | rdStatus | rdDataAddr | rdLen | rdSeed | rdDigest | rdCause | rdFaultAddr => cases hcode

/-! ### The two orders of a host access and a stage -/

/-- The access `i` is no START that `s` accepts (R120). -/
def AcceptsNoStart (i : Instr) (s : State) : Prop := ∀ v, i = .start v → v.getLsbD 0 = true → s.stage ≠ stageIdle

/-- A host access that starts no operation writes the same to two states that hold the same on the host's side; only the
value read can differ (R123). -/
theorem exec_hostAccess_same_writes {i : Instr} {s u : State} (hi : isHostAccess i = true) (hs : AcceptsNoStart i s)
    (hu : AcceptsNoStart i u) :
    ∃ da l sd rd rd', exec i s = .next (withHost s da l sd rd s.program) ∧
      exec i (withHost u s.dataAddr s.len s.seed s.readData s.program) = .next (withHost u da l sd rd' s.program) := by
  cases i with
  | idle | init | block | fold | tail25 | tail17 | tail9 | tail1 | final | faulted => cases hi
  | start v => exact ⟨_, _, _, _, _, execStart_ignored (hs v rfl), execStart_ignored (hu v rfl)⟩
  | wrDataAddr | wrLen | wrSeed | wrStatusIgnored | wrDigestIgnored | wrCauseIgnored | wrFaultAddrIgnored | rdCtrl
  | rdStatus | rdDataAddr | rdLen | rdSeed | rdDigest | rdCause | rdFaultAddr => exact ⟨_, _, _, _, _, rfl, rfl⟩

/-- Settles O43: the stage works on nothing of the host's side, the access on nothing else, and what a read returns is the
one thing that shows their order. -/
theorem hostAccessesCommuteWithStages : Obligations.HostAccessesCommuteWithStages := by
  intro s t u i j a hb hfinal hj hi ht hu
  have hstage := isHostAccess_of_decodeStage hj
  have hstart_s : AcceptsNoStart i s := fun _ _ _ => stage_ne_idle_of_busy hb
  have hstart_u : AcceptsNoStart i u := fun v hv hbit hidle =>
    absurd hbit (Bool.eq_false_iff.mp (hfinal (stage_final_of_next_idle hb hj hu hidle) v hv))
  obtain ⟨da, l, sd, rd, rd', haccess, hafter⟩ :=
    exec_hostAccess_same_writes (isHostAccess_of_decodeAccess hi) hstart_s hstart_u
  rw [exec_stage_keeps_host hstage hu] at hafter
  cases haccess.symm.trans ht
  exact ⟨⟨rfl, rfl, rfl, rfl, rfl, rfl, rfl, rfl, rfl, rfl, rfl, rfl⟩, _, _,
    exec_stage_withHost da l sd rd s.program hstage hu, hafter, rfl⟩

end Sys2Proof.Machine
end

section
/-! PROOFS. BLOCK and FOLD (43_block_mixer.md R131, R133): what a load of several bytes reports (60_exceptions.md R164), and
what a reading stage makes of it. -/

namespace Sys2Proof.Machine

/-! ### The lowest refused byte of a load (R101, R164) -/

/-- `r` is what a load of the `k` bytes from `p` on reports: a value where all of them are readable, and on ordinary memory
the lowest refused one. -/
structure ReportsLowest {α : Type} (s : State) (p k : Nat) (r : ReadResult α) : Prop where
  ok : (∀ i < k, ∃ byte, memRead s (p + i) = .ok byte) → ∃ v, r = .ok v
  ordinary : (∀ i < k, ∀ addr, memRead s (p + i) ≠ .unsaid addr) → ∀ addr, r ≠ .unsaid addr
  refused : ∀ j, LowestRefused s p k j → r = .refused (p + j)

/-- A refused byte in the lower part of a load is the lowest refused one of that part. -/
theorem LowestRefused.lower_part {s : State} {p j k i : Nat} (h : LowestRefused s p (j + k) i) (hi : i < j) :
    LowestRefused s p j i :=
  ⟨hi, fun x hx => h.ordinary x (by omega), h.refused, h.lower⟩

/-- A lowest refused byte in the upper part of a load is the lowest refused one of that part. -/
theorem LowestRefused.upper_part {s : State} {p j k i : Nat} (h : LowestRefused s p (j + k) (j + i)) :
    LowestRefused s (p + j) k i where
  inside := Nat.lt_of_add_lt_add_left h.inside
  ordinary x hx := by
    rw [Nat.add_assoc]
    exact h.ordinary (j + x) (by omega)
  refused := by
    rw [Nat.add_assoc]
    exact h.refused
  lower x hx := by
    rw [Nat.add_assoc]
    exact h.lower (j + x) (by omega)

theorem ReportsLowest.both {α β γ : Type} {s : State} {p j k : Nat} {f : α → β → γ} {x : ReadResult α}
    {y : ReadResult β} (hx : ReportsLowest s p j x) (hy : ReportsLowest s (p + j) k y) :
    ReportsLowest s p (j + k) (ReadResult.both f x y) where
  ok h := by
    obtain ⟨v, hv⟩ := hx.ok fun i hi => h i (by omega)
    obtain ⟨w, hw⟩ := hy.ok fun i hi => by simpa only [Nat.add_assoc] using h (j + i) (by omega)
    exact ⟨f v w, ReadResult.both_eq_ok.mpr ⟨v, w, hv, hw, rfl⟩⟩
  ordinary h :=
    ReadResult.both_ne_unsaid (hx.ordinary fun i hi => h i (by omega))
      (hy.ordinary fun i hi => by simpa only [Nat.add_assoc] using h (j + i) (by omega))
  refused i h := by
    refine ReadResult.both_eq_refused.mpr ?_
    obtain hi | ⟨i, rfl⟩ : i < j ∨ ∃ i', i = j + i' := (Nat.lt_or_ge i j).imp_right Nat.exists_eq_add_of_le
    · have hy_ordinary := hy.ordinary fun x hx => by
        simpa only [Nat.add_assoc] using h.ordinary (j + x) (by omega)
      exact .inl ⟨hx.refused i (h.lower_part hi), hy_ordinary⟩
    · have hx_ok := hx.ok fun x hx => h.lower x (by omega)
      exact .inr ⟨hx_ok, Nat.add_assoc p j i ▸ hy.refused i h.upper_part⟩

theorem reportsLowest_memRead (s : State) (p : Nat) : ReportsLowest s p 1 (memRead s p) where
  ok h := h 0 Nat.one_pos
  ordinary h := h 0 Nat.one_pos
  refused j h := by
    obtain rfl : j = 0 := Nat.lt_one_iff.mp h.inside
    exact h.refused

theorem reportsLowest_loadLE (s : State) (p k : Nat) : ReportsLowest s p k (loadLE s p k) := by
  induction k with
  | zero => exact ⟨fun _ => ⟨0, rfl⟩, fun _ => nofun, fun _ h => absurd h.inside (Nat.not_lt_zero _)⟩
  | succ k ih => exact ih.both (reportsLowest_memRead s (p + k))

theorem reportsLowest_loadBlock (s : State) (p : Nat) : ReportsLowest s p 32 (loadBlock s p) :=
  ((reportsLowest_loadLE s p 8).both (reportsLowest_loadLE s (p + 8) 8)).both
    ((reportsLowest_loadLE s (p + 16) 8).both (reportsLowest_loadLE s (p + 24) 8))

/-- A reading stage that meets a refused byte enters FAULTED with the lowest one (60_exceptions.md R163, R164). -/
theorem readingStage_of_lowestRefused {α : Type} {s : State} {p k j : Nat} {r : ReadResult α} (writes : α → State)
    (hr : ReportsLowest s p k r) (h : LowestRefused s p k j) :
    readingStage s p k r writes = .next (afterReadFault s p k j) := by
  rw [hr.refused j h]
  rfl

/-! ### BLOCK and FOLD -/

/-- BLOCK on 32 readable bytes mixes their four little-endian words (43_block_mixer.md R131). -/
theorem exec_block_of_reads {s : State} {m : Nat → Byte} (h : InputReads s s.ptr.toNat 32 m) :
    exec .block s = .next (recordReads
      (mixBlock s ⟨leWord m 0 8, leWord m 8 8, leWord m 16 8, leWord m 24 8⟩) (List.range' s.ptr.toNat 32)) := by
  have hbytes : ∀ i < 32, memRead s (s.ptr.toNat + i) = .ok (m (0 + i)) := by simpa [InputReads] using h
  exact readingStage_of_ok (loadBlock_of_reads hbytes)

/-- Settles O16: the load of a block gives its four words, or reports the lowest refused byte. -/
theorem blockMixesThirtyTwoBytes : Obligations.BlockMixesThirtyTwoBytes := fun s =>
  ⟨fun _ hreads => exec_block_of_reads hreads, fun _ hrefused =>
    readingStage_of_lowestRefused (mixBlock s) (reportsLowest_loadBlock s s.ptr.toNat) hrefused⟩

/-- Settles O17: FOLD reads no memory, so its writes are all that it does. -/
theorem foldFoldsTheAuxiliaryLanes : Obligations.FoldFoldsTheAuxiliaryLanes := fun _ => rfl

end Sys2Proof.Machine
end

section
/-! PROOFS. The stages of an operation on readable input, in every order of sequencer and host turns (43_block_mixer.md R130,
R134; 44_tail_absorber.md R145): each sequencer step performs the first of the stages to come, and no other turn changes
them. -/

namespace Sys2Proof.Machine

/-! ### One step of an operation that progresses -/

/-- A step is the sequencer's, which makes progress, or leaves the operation as it is. -/
theorem Progresses.step {allowed : Turn → Prop} {P Q : Nat → State → Prop} (hp : Progresses allowed P Q) {r : Nat}
    {s : State} (h : P r s) (hs : ∀ turn ∈ s.schedule, allowed turn) :
    ∃ t, Machine.step s = .next t ∧
      (((nextTurn s).1 = .sequencer ∧ ∃ r', r = r' + 1 ∧ (P r' t ∨ Q r' t)) ∨
        ((nextTurn s).1 ≠ .sequencer ∧ P r t)) := by
  have hb := hp.busy h
  have h' := hp.reschedule s.schedule.tail h
  rw [Machine.step, nextTurn_snd]
  by_cases hseq : (nextTurn s).1 = .sequencer
  · obtain ⟨r', t, hr, ht, hend⟩ := hp.sequencer h'
    rw [hseq]
    exact ⟨t, (unlessReserved_of_busy (s := { s with schedule := _ }) hb _).trans ht, .inl ⟨rfl, r', hr, hend⟩⟩
  · have hmem : (nextTurn s).1 ∈ s.schedule := schedule_eq_cons_of_busy hb hseq ▸ List.mem_cons_self ..
    obtain ⟨t, ht, hP⟩ := hp.other h' (hs _ hmem) hseq
    exact ⟨t, ht, .inr ⟨hseq, hP⟩⟩

/-! ### The stage trace -/

theorem stageTrace_succ_of_step {s t : State} (k : Nat) (h : step s = .next t) :
    stageTrace (k + 1) s = (if (nextTurn s).1 = .sequencer then [s.stage] else []) ++ stageTrace k t := by
  simp only [stageTrace, h]

/-- Every sequencer step performs one stage. -/
theorem length_stageTrace (k : Nat) (s : State) : (stageTrace k s).length = sequencerSteps k s := by
  induction k generalizing s with
  | zero => rfl
  | succ k ih =>
    cases hs : step s with
    | next t =>
      rw [stageTrace_succ_of_step k hs, sequencerSteps_succ_of_step k hs, List.length_append, ih, Nat.add_comm]
      split_ifs <;> rfl
    | fault | refused =>
      simp only [stageTrace, sequencerSteps, turnTrace, hs, List.append_nil, List.count_singleton, beq_iff_eq]
      split_ifs <;> rfl

/-! ### The stages to come -/

/-- The stages of `n` bytes left in BLOCK or FOLD (43_block_mixer.md R130, R134). -/
def blockStages (n : Nat) : List (BitVec 4) :=
  List.replicate (n / 32) stageBlock ++ stageFold :: tailStages (n % 32) ++ [stageFinal]

theorem operationStages_of_le {len : Nat} (h : len ≤ 32) :
    operationStages len = stageInit :: (tailStages len ++ [stageFinal]) :=
  if_pos h

theorem operationStages_of_lt {len : Nat} (h : 32 < len) : operationStages len = stageInit :: blockStages len :=
  if_neg (Nat.not_le.mpr h)

/-- While a whole block is left BLOCK comes next. -/
theorem blockStages_of_le {n : Nat} (h : 32 ≤ n) : blockStages n = stageBlock :: blockStages (n - 32) := by
  obtain ⟨hdiv, hmod⟩ : n / 32 = (n - 32) / 32 + 1 ∧ n % 32 = (n - 32) % 32 := by omega
  rw [blockStages, hdiv, hmod, List.replicate_succ]
  rfl

/-- With less than a block left FOLD comes next, and the tail after it. -/
theorem blockStages_of_lt {n : Nat} (h : n < 32) : blockStages n = stageFold :: (tailStages n ++ [stageFinal]) := by
  rw [blockStages, Nat.div_eq_of_lt h, Nat.mod_eq_of_lt h]
  rfl

/-- The first tail stage of `n` bytes is the one dispatched on `n`, and those of the bytes after its eight follow
(44_tail_absorber.md R140, R145). -/
theorem tailStages_eq_cons {n : Word} (lo : 1 ≤ n.toNat) (hi : n.toNat ≤ 32) :
    tailStages n.toNat = dispatch n :: tailStages (n.toNat - 8) := by
  unfold dispatch
  split_ifs with h25 h17 h9 <;> simp (disch := omega) only [tailStages, if_pos, if_neg] <;> rfl

/-- The stages that the operation of `s` has still to perform; none in IDLE. -/
def stagesToCome (s : State) : List (BitVec 4) :=
  if s.stage = stageIdle then []
  else if s.stage = stageInit then operationStages s.lenL.toNat
  else if s.stage = stageBlock ∨ s.stage = stageFold then blockStages s.n.toNat
  else tailStages s.n.toNat ++ [stageFinal]

section StagesToCome
variable {s t : State}

theorem stagesToCome_idle (h : s.stage = stageIdle) : stagesToCome s = [] :=
  if_pos h

theorem stagesToCome_init (h : s.stage = stageInit) : stagesToCome s = operationStages s.lenL.toNat := by
  rw [stagesToCome, if_neg (h ▸ by decide), if_pos h]

theorem stagesToCome_block (h : s.stage = stageBlock ∨ s.stage = stageFold) :
    stagesToCome s = blockStages s.n.toNat := by
  obtain ⟨hidle, hinit⟩ : s.stage ≠ stageIdle ∧ s.stage ≠ stageInit := by
    rcases h with h | h <;> rw [h] <;> decide
  rw [stagesToCome, if_neg hidle, if_neg hinit, if_pos h]

/-- Past the fold the tail stages of the bytes left are to come, and FINAL. -/
theorem stagesToCome_of_dispatch (h : s.stage = dispatch s.n) :
    stagesToCome s = tailStages s.n.toNat ++ [stageFinal] := by
  have hne : ∀ code ∈ [stageTail25, stageTail17, stageTail9, stageTail1, stageFinal],
      code ≠ stageIdle ∧ code ≠ stageInit ∧ ¬(code = stageBlock ∨ code = stageFold) := by decide
  obtain ⟨hidle, hinit, hblock⟩ := hne _ (h ▸ dispatch_mem s.n)
  rw [stagesToCome, if_neg hidle, if_neg hinit, if_neg hblock]

theorem SamePoint.stagesToCome (h : SamePoint s t) : stagesToCome t = stagesToCome s := by
  rw [Machine.stagesToCome, h.stage, h.lenL, h.n, Machine.stagesToCome]

/-! ### Each sequencer step performs the first of the stages to come -/

/-- Past the fold a running operation is in the stage dispatched on N (44_tail_absorber.md R140). -/
theorem Running.stage_eq_dispatch {r : Nat} (h : Running r s) (hs : s.stage ∉ [stageInit, stageBlock, stageFold]) :
    s.stage = dispatch s.n := by
  cases h with
  | init h | block h | fold h => exact absurd (by simp [h]) hs
  | tail25 h | tail17 h | tail9 h | tail1 h | final h =>
    rw [h]
    simp (disch := omega) only [dispatch, if_pos, if_neg]

/-- INIT leads to the blocks of a long input, or to the tail of a short one (43_block_mixer.md R130). -/
theorem stagesToCome_initLanes (h : s.stage = stageInit) :
    stagesToCome s = stageInit :: stagesToCome (initLanes s) := by
  rw [stagesToCome_init h]
  by_cases hlen : 32 < s.lenL.toNat
  · rw [operationStages_of_lt hlen, stagesToCome_block (.inl (if_pos hlen)), initLanes_n]
  · rw [operationStages_of_le (Nat.not_lt.mp hlen), stagesToCome_of_dispatch (s := initLanes s) (if_neg hlen),
      initLanes_n]

/-- BLOCK leads to the next block or to FOLD (43_block_mixer.md R131). -/
theorem stagesToCome_mixBlock (w : BlockWords) (addrs : List Nat) (h : s.stage = stageBlock) (lo : 32 ≤ s.n.toNat) :
    stagesToCome s = stageBlock :: stagesToCome (recordReads (mixBlock s w) addrs) := by
  have hn : (s.n - 32).toNat = s.n.toNat - 32 := toNat_sub_of_le_toNat (k := 32) lo
  have hnext : (recordReads (mixBlock s w) addrs).stage = stageBlock ∨
      (recordReads (mixBlock s w) addrs).stage = stageFold := ite_eq_or_eq _ _ _
  rw [stagesToCome_block (.inl h), stagesToCome_block hnext, recordReads_n, mixBlock_n, hn,
    blockStages_of_le lo]

/-- A tail stage leads to the one dispatched on the bytes after its own (44_tail_absorber.md R141 to R144). -/
theorem stagesToCome_tailStage (hs : s.stage = dispatch s.n) (lo : 1 ≤ s.n.toNat) (hi : s.n.toNat ≤ 32)
    (ht : t.stage = dispatch t.n) (hn : t.n.toNat = s.n.toNat - 8) :
    stagesToCome s = s.stage :: stagesToCome t := by
  rw [stagesToCome_of_dispatch hs, stagesToCome_of_dispatch ht, hn, tailStages_eq_cons lo hi, ← hs]
  rfl

/-- A reading stage that does not fault has made its writes. -/
theorem readingStage_writes {α : Type} {p k : Nat} {r : ReadResult α} {writes : α → State}
    (h : readingStage s p k r writes = .next t) (ht : t.stage ≠ stageFaulted) :
    ∃ v addrs, t = recordReads (writes v) addrs := by
  rcases readingStage_next h with ⟨v, -, rfl⟩ | ⟨addr, -, rfl⟩
  · exact ⟨v, _, rfl⟩
  · exact absurd rfl ht

/-- A sequencer step of a running operation that does not fault performs the first of the stages to come. -/
theorem Running.stagesToCome_eq_cons {r : Nat} (hr : Running r s) (h : sequencerTurn s = .next t)
    (ht : t.stage ≠ stageFaulted) : stagesToCome s = s.stage :: stagesToCome t := by
  have hdispatch := hr.stage_eq_dispatch
  cases hr with
  | init hs =>
    rw [sequencerTurn_of_stage hs rfl] at h
    by_cases hrange : outOfRange s = true
    · cases (execInit_of_outOfRange hrange).symm.trans h
      exact absurd rfl ht
    · cases (execInit_of_inRange hrange).symm.trans h
      rw [hs]
      exact stagesToCome_initLanes hs
  | block hs lo =>
    rw [sequencerTurn_of_stage hs rfl] at h
    obtain ⟨w, addrs, rfl⟩ := readingStage_writes h ht
    rw [hs]
    exact stagesToCome_mixBlock w addrs hs lo
  | fold hs hi =>
    rw [sequencerTurn_of_stage hs rfl] at h
    cases h
    rw [stagesToCome_block (.inr hs), stagesToCome_of_dispatch rfl, hs, blockStages_of_lt hi]
  | tail25 hs lo hi | tail17 hs lo hi | tail9 hs lo hi =>
    rw [sequencerTurn_of_stage hs rfl] at h
    obtain ⟨w, addrs, rfl⟩ := readingStage_writes h ht
    exact stagesToCome_tailStage (hdispatch (hs ▸ by decide)) (by omega) (by omega) rfl
      (toNat_sub_of_le_toNat (k := 8) (show 8 ≤ s.n.toNat by omega))
  | tail1 hs lo hi =>
    rw [sequencerTurn_of_stage hs rfl] at h
    obtain ⟨w, addrs, rfl⟩ := readingStage_writes (execTail1_next h) ht
    exact stagesToCome_tailStage (hdispatch (hs ▸ by decide)) lo (by omega) rfl (Nat.sub_eq_zero_of_le hi).symm
  | final hs hn =>
    rw [sequencerTurn_of_stage hs rfl] at h
    cases h
    rw [stagesToCome_of_dispatch (hdispatch (hs ▸ by decide)), stagesToCome_idle rfl, hs, hn]
    rfl

end StagesToCome

/-! ### The trace of an operation on readable input -/

/-- The sequencer steps that an operation on readable input has to go perform exactly the stages to come. -/
theorem RunsReadable.stageTrace_eq {m : Nat → Byte} {s₀ s : State} {r k : Nat} (h : RunsReadable m s₀ r s)
    (hturns : SequencerAndHostOnly s) (hk : sequencerSteps k s = r) : stageTrace k s = stagesToCome s := by
  induction k generalizing r s with
  | zero =>
    obtain ⟨r', -, hr, -⟩ := (runsReadable_progresses m s₀).sequencer h
    exact absurd (hk.trans hr) (Nat.succ_ne_zero r').symm
  | succ k ih =>
    have hreset : .reset ∉ s.schedule := fun hmem => by simpa using hturns _ hmem
    obtain ⟨t, ht, hcase⟩ := (runsReadable_progresses m s₀).step h hturns
    have hturns' : SequencerAndHostOnly t := fun turn hmem =>
      hturns turn (List.mem_of_mem_tail (step_schedule ht ▸ hmem))
    rw [stageTrace_succ_of_step k ht]
    rw [sequencerSteps_succ_of_step k ht] at hk
    rcases hcase with ⟨hturn, r', rfl, hend⟩ | ⟨hturn, ht'⟩
    · rw [if_pos hturn] at hk
      obtain ⟨-, hseq⟩ := (step_cases ht hreset).resolve_right fun hother => hother.1 hturn
      have hfirst : t.stage ≠ stageFaulted → stagesToCome s = s.stage :: stagesToCome t :=
        Running.stagesToCome_eq_cons (s := { s with schedule := s.schedule.tail }) h.running hseq
      obtain ⟨hnofault, hrest⟩ : t.stage ≠ stageFaulted ∧ stageTrace k t = stagesToCome t := by
        rcases hend with ht' | ⟨rfl, hdelivered⟩
        · exact ⟨fun hf => ht'.tracks.stage (by simp [hf]), ih ht' hturns' (Nat.succ_inj.mp hk)⟩
        · have hnone : stageTrace k t = [] :=
            List.eq_nil_of_length_eq_zero ((length_stageTrace k t).trans (Nat.succ_inj.mp hk))
          exact ⟨hdelivered.stage ▸ by decide, hnone.trans (stagesToCome_idle hdelivered.stage).symm⟩
      rw [if_pos hturn, hfirst hnofault, hrest]
      rfl
    · rw [if_neg hturn] at hk ⊢
      have hsame : SamePoint s t := by
        rcases step_cases ht hreset with ⟨hseq, -⟩ | ⟨-, hsame | ⟨hidle, -⟩⟩
        · exact absurd hseq hturn
        · exact hsame
        · exact absurd hidle (stage_ne_idle_of_busy h.running.busy)
      rw [ih ht' hturns' hk, hsame.stagesToCome]
      rfl

/-- Settles O48: at INIT the stages to come are those of the operation's length, with S(len) steps to go. -/
theorem operationsPerformTheirStages : Obligations.OperationsPerformTheirStages := by
  intro s m k hinit hturns hlegal hreads hk
  have hrun : RunsReadable m s (operationSteps s.lenL.toNat) s := ⟨.init hinit.stage, hlegal, hinit.tracks hreads⟩
  rw [hrun.stageTrace_eq hturns hk, stagesToCome_init hinit.stage]

end Sys2Proof.Machine
end

section
/-! PROOFS. The tail stages (44_tail_absorber.md R140 to R146): a stage that reads one word absorbs it or reports the lowest
refused byte, and the dispatch by its closed ranges. -/

namespace Sys2Proof.Machine

/-! ### A stage that reads one word -/

section WordStage
variable {s : State} {p k : Nat}

theorem loadLE_of_inputReads {m : Nat → Byte} (hk : k ≤ 8) (h : InputReads s p k m) :
    loadLE s p k = .ok (leWord m 0 k) := by
  have hbytes : ∀ i < k, memRead s (p + i) = .ok (m (0 + i)) := by simpa only [InputReads, Nat.zero_add] using h
  exact loadLE_of_reads hk hbytes

/-- On readable bytes the stage makes its writes on their little-endian word (40_byte_loader.md R100). -/
theorem readingStage_loadLE_of_inputReads {m : Nat → Byte} (writes : Word → State) (hk : k ≤ 8)
    (h : InputReads s p k m) :
    readingStage s p k (loadLE s p k) writes = .next (recordReads (writes (leWord m 0 k)) (List.range' p k)) :=
  readingStage_of_ok (loadLE_of_inputReads hk h)

theorem readingStage_loadLE_of_lowestRefused {j : Nat} (writes : Word → State) (h : LowestRefused s p k j) :
    readingStage s p k (loadLE s p k) writes = .next (afterReadFault s p k j) :=
  readingStage_of_lowestRefused writes (reportsLowest_loadLE s p k) h

end WordStage

/-! ### TAIL25, TAIL17 and TAIL9 (R141, R142, R143) -/

/-- Settles O18: each of the three stages is a reading stage on the eight bytes at PTR, with writes of its own. -/
theorem fullTailStagesAbsorbEightBytes : Obligations.FullTailStagesAbsorbEightBytes := by
  intro s
  refine ⟨fun m hreads => ?_, fun j hrefused => ?_⟩
  · have absorbs writes := readingStage_loadLE_of_inputReads writes le_rfl hreads
    exact ⟨absorbs _, absorbs _, absorbs _⟩
  · have faults writes := readingStage_loadLE_of_lowestRefused writes hrefused
    exact ⟨faults _, faults _, faults _⟩

/-! ### TAIL1 (R144) -/

/-- TAIL1's writes. -/
def absorbRest (s : State) (w : Word) : State :=
  { s with
    a := s.a + mux64 w s.platform.rom.p1
    ptr := s.ptr + s.n.setWidth 65
    n := 0
    stage := stageFinal }

/-- With a count in the domain of tail64 TAIL1 is a reading stage on the last N bytes (40_byte_loader.md R104). -/
theorem exec_tail1_of_domain {s : State} (lo : 1 ≤ s.n.toNat) (hi : s.n.toNat ≤ 8) :
    exec .tail1 s =
      readingStage s s.ptr.toNat s.n.toNat (loadLE s s.ptr.toNat s.n.toNat) (absorbRest s) := by
  rw [show exec .tail1 s = execTail1 s from rfl, execTail1, tail64_of_domain s _ lo hi]
  rfl

/-- Settles O19: in the domain of tail64 the stage absorbs the bytes left, or reports the lowest refused one. -/
theorem lastTailStageAbsorbsTheRest : Obligations.LastTailStageAbsorbsTheRest := by
  intro s lo hi
  rw [exec_tail1_of_domain lo hi]
  exact ⟨fun _ hreads => readingStage_loadLE_of_inputReads (absorbRest s) hi hreads,
    fun _ hrefused => readingStage_loadLE_of_lowestRefused (absorbRest s) hrefused⟩

/-! ### The tail dispatch (R140, R146) -/

/-- Settles O36: N in one range fails the tests of the ranges above it and passes its own. -/
theorem dispatchFollowsTheRanges : Obligations.DispatchFollowsTheRanges := by
  intro n
  refine ⟨fun h25 => ?tail25, fun lo hi => ?tail17, fun lo hi => ?tail9, fun lo hi => ?tail1, fun h0 => ?final⟩
  case tail25 => exact if_pos h25
  case tail17 => rw [dispatch, if_neg (by omega), if_pos lo]; rfl
  case tail9 => rw [dispatch, if_neg (by omega), if_neg (by omega), if_pos lo]; rfl
  case tail1 => rw [dispatch, if_neg (by omega), if_neg (by omega), if_neg (by omega), if_pos lo]; rfl
  case final => rw [dispatch, if_neg (by omega), if_neg (by omega), if_neg (by omega), if_neg (by omega)]; rfl

end Sys2Proof.Machine
end

section
/-! PROOFS. FINAL (45_finalizer.md R150), and the operation on the empty input with seed 0, which reads no memory and whose
digest is 0 for every PRIME (R152). -/

namespace Sys2Proof.Machine

/-! ### FINAL (R150) -/

/-- Settles O21: these are the stage's writes, with 17 for s1 and 0 for IDLE's code. -/
theorem finalFoldsTheDigest : Obligations.FinalFoldsTheDigest := fun _ => rfl

/-- With A = B = 0 FINAL delivers 0, whatever p0 and p4 are: mux64 and mix take 0 to 0 (R150, R152). -/
theorem exec_final_of_zero_lanes {s : State} (ha : s.a = 0) (hb : s.b = 0) :
    ∃ t, exec .final s = .next t ∧ Hashed 0 t := by
  refine ⟨_, finalFoldsTheDigest s, rfl, rfl, ?_⟩
  have hsum : rotr (s.a + s.b) 17 = 0 := by rw [ha, hb]; decide
  have hxor : s.a ^^^ s.b = 0 := by rw [ha, hb]; decide
  change mux64 (rotr (s.a + s.b) 17) _ + mix (s.a ^^^ s.b) _ = 0
  rw [hsum, hxor, mux64_zero_left, mix_zero_left]
  decide

/-! ### The two steps of the empty operation with seed 0 (R152, R153) -/

/-- How many sequencer steps the empty operation with seed 0 has to go, and what each of its two stages starts from. -/
inductive EmptyStepsLeft (stage : BitVec 4) (lenL seedL a b : Word) : Nat → Prop
  | init (hs : stage = stageInit) (hlen : lenL = 0) (hseed : seedL = 0) : EmptyStepsLeft stage lenL seedL a b 2
  | final (hs : stage = stageFinal) (ha : a = 0) (hb : b = 0) : EmptyStepsLeft stage lenL seedL a b 1

/-- The empty operation with seed 0 runs with `r` steps to go. -/
def EmptyRunning (r : Nat) (s : State) : Prop := EmptyStepsLeft s.stage s.lenL s.seedL s.a s.b r

section EmptyRunning
variable {r : Nat} {s : State}

theorem EmptyRunning.busy (h : EmptyRunning r s) : busy s = true := by
  cases h with
  | init hs | final hs => rw [Machine.busy, hs]; rfl

theorem EmptyRunning.storeByte (h : EmptyRunning r s) (addr : Nat) (byte : Byte) :
    EmptyRunning r (storeByte s addr byte) := by
  simpa [EmptyRunning] using h

/-- The empty input fits every address space (R121). -/
theorem not_outOfRange_of_empty (hlen : s.lenL = 0) : ¬outOfRange s = true := by
  simp [outOfRange_iff, hlen]

/-- INIT of the empty input with seed 0 leads straight to FINAL, with A = B = 0 (R121, R140). -/
theorem emptyRunning_initLanes (hlen : s.lenL = 0) (hseed : s.seedL = 0) : EmptyRunning 1 (initLanes s) := by
  refine .final ?_ hseed hlen
  rw [initLanes_stage, hlen]
  decide

/-- Neither stage reads memory, so the sequencer's step always moves: to FINAL, or to IDLE with the digest 0. -/
theorem EmptyRunning.sequencer (h : EmptyRunning r s) :
    ∃ r' t, r = r' + 1 ∧ sequencerTurn s = .next t ∧ (EmptyRunning r' t ∨ (r' = 0 ∧ Hashed 0 t)) := by
  cases h with
  | init hs hlen hseed =>
    have hinit := execInit_of_inRange (not_outOfRange_of_empty hlen)
    exact ⟨1, _, rfl, (sequencerTurn_of_stage hs rfl).trans hinit, .inl (emptyRunning_initLanes hlen hseed)⟩
  | final hs ha hb =>
    obtain ⟨t, ht, hhashed⟩ := exec_final_of_zero_lanes ha hb
    exact ⟨0, t, rfl, (sequencerTurn_of_stage hs rfl).trans ht, .inr ⟨rfl, hhashed⟩⟩

end EmptyRunning

/-! ### In every order of turns without a reset -/

/-- Stores from outside do not disturb the operation either, since it reads nothing. -/
theorem emptyRunning_progresses :
    Progresses (· ≠ .reset) (fun r s => EmptyRunning r s ∧ LegalProgram s) (fun r t => r = 0 ∧ Hashed 0 t) where
  busy h := h.1.busy
  reschedule _ h := h
  sequencer {r s} h := by
    obtain ⟨hrun, hlegal⟩ := h
    obtain ⟨r', t, hr, ht, hend⟩ := hrun.sequencer
    obtain ⟨hp, -, hl, -⟩ := sequencerTurn_sameOutside ht
    exact ⟨r', t, hr, ht, hend.imp_left fun hrun' => ⟨hrun', hlegal.congr hp hl⟩⟩
  other {r s turn} h hturn hseq := by
    obtain ⟨hrun, hlegal⟩ := h
    cases turn with
    | sequencer => exact absurd rfl hseq
    | reset => exact absurd rfl hturn
    | host =>
      obtain ⟨da, l, sd, rd, lines, ht, hl⟩ := hostTurn_of_busy hrun.busy hlegal
      exact ⟨_, (unlessReserved_of_busy hrun.busy _).trans ht, hrun, hl⟩
    | memWrite addr byte =>
      exact ⟨_, unlessReserved_of_busy hrun.busy _, hrun.storeByte addr byte,
        hlegal.congr (storeByte_platform s addr byte) (storeByte_program s addr byte)⟩

/-- Settles O52: at INIT the empty operation has its two steps to go, and it progresses until FINAL delivers 0. -/
theorem emptyInputWithSeedZeroHashesToZero : Obligations.EmptyInputWithSeedZeroHashesToZero := by
  intro s hinit hreset hlegal hlen hseed
  have hrun : EmptyRunning 2 s := .init hinit.stage hlen hseed
  obtain ⟨k, q, r', t, hk, hle, hq, rfl, hend⟩ := emptyRunning_progresses.exists_runsBusy ⟨hrun, hlegal⟩
    fun turn hturn heq => hreset (heq ▸ hturn)
  obtain rfl : q = 2 := hq
  exact ⟨k, hle, t, hk.run, hk.turns, hend.digest, hend.done⟩

end Sys2Proof.Machine
end

section
/-! PROOFS. Faults (60_exceptions.md): an instruction enters FAULTED by one of the two faults of R160, a load gives a value
exactly on readable bytes (R164), and only reset leaves FAULTED (R165). -/

namespace Sys2Proof.Machine

/-! ### Entry into FAULTED (R160, R163) -/

theorem dispatch_ne_faulted (n : Word) : dispatch n ≠ stageFaulted := fun h => dispatch_runs n (by simp [h])

/-- A reading stage that answers FAULTED without naming it in its writes has taken a ReadFault. -/
theorem readingStage_enters_faulted {α : Type} {s t : State} {p k : Nat} {r : ReadResult α} {writes : α → State}
    (h : readingStage s p k r writes = .next t) (ht : t.stage = stageFaulted)
    (hw : ∀ v, (writes v).stage ≠ stageFaulted) : ∃ addr, t = raiseReadFault s p k addr := by
  rcases readingStage_next h with ⟨v, -, rfl⟩ | ⟨addr, -, rfl⟩
  · exact absurd ht (hw v)
  · exact ⟨addr, rfl⟩

/-- An instruction that enters FAULTED is INIT with a RangeFault at PTR, or a reading stage with a ReadFault. -/
theorem exec_enters_faulted {i : Instr} {s t : State} (hs : s.stage ≠ stageFaulted) (h : exec i s = .next t)
    (ht : t.stage = stageFaulted) :
    (i = .init ∧ t = raiseFault s .rangeFault s.ptr.toNat) ∨
      ((i = .block ∨ i = .tail25 ∨ i = .tail17 ∨ i = .tail9 ∨ i = .tail1) ∧
        ∃ p k addr, t = raiseReadFault s p k addr) := by
  by_cases hi : isHostAccess i = true
  · have hmoves : t.stage ≠ s.stage := fun heq => hs (heq.symm.trans ht)
    obtain ⟨-, rfl, -⟩ := exec_hostAccess_moves_stage hi h hmoves
    exact absurd ht (by decide : stageInit ≠ stageFaulted)
  cases i with
  | init =>
    by_cases hr : outOfRange s = true
    · cases (execInit_of_outOfRange hr).symm.trans h
      exact .inl ⟨rfl, rfl⟩
    · cases (execInit_of_inRange hr).symm.trans h
      refine absurd ht ?_
      rw [initLanes_stage]
      split_ifs
      · decide
      · exact dispatch_ne_faulted _
  | block =>
    refine .inr ⟨by decide, _, _, readingStage_enters_faulted h ht fun w => ?_⟩
    rw [mixBlock_stage]
    split_ifs <;> decide
  | tail25 | tail17 | tail9 =>
    exact .inr ⟨by decide, _, _, readingStage_enters_faulted h ht fun _ => dispatch_ne_faulted _⟩
  | tail1 =>
    have hfinal : stageFinal ≠ stageFaulted := by decide
    exact .inr ⟨by decide, _, _, readingStage_enters_faulted (execTail1_next h) ht fun _ => hfinal⟩
  | fold =>
    cases h
    exact absurd ht (dispatch_ne_faulted s.n)
  | final =>
    cases h
    exact absurd ht (by decide : stageIdle ≠ stageFaulted)
  | idle | faulted =>
    cases h
    exact absurd ht hs
  | start | wrDataAddr | wrLen | wrSeed | wrStatusIgnored | wrDigestIgnored | wrCauseIgnored | wrFaultAddrIgnored
  | rdCtrl | rdStatus | rdDataAddr | rdLen | rdSeed | rdDigest | rdCause | rdFaultAddr => exact absurd rfl hi

/-- Settles O23: the entry is `raiseFault` or `raiseReadFault`, whose writes are the ones listed. -/
theorem faultsArePrecise : Obligations.FaultsArePrecise := by
  intro s t i hs h ht
  rcases exec_enters_faulted hs h ht with ⟨rfl, rfl⟩ | ⟨hi, p, k, addr, rfl⟩
  · exact ⟨rfl, .inl ⟨rfl, rfl, BitVec.ofNat_toNat 64 s.ptr, rfl, rfl⟩⟩
  · exact ⟨rfl, .inr ⟨hi, rfl⟩⟩

/-! ### The lowest refused byte (R164) -/

/-- Two reads together give a value exactly where each of them does. -/
theorem ReadResult.exists_both_eq_ok {α β γ : Type} {f : α → β → γ} {x : ReadResult α} {y : ReadResult β} :
    (∃ u, ReadResult.both f x y = .ok u) ↔ (∃ v, x = .ok v) ∧ ∃ w, y = .ok w := by
  constructor
  · rintro ⟨u, hu⟩
    obtain ⟨v, w, hv, hw, -⟩ := ReadResult.both_eq_ok.mp hu
    exact ⟨⟨v, hv⟩, w, hw⟩
  · rintro ⟨⟨v, hv⟩, w, hw⟩
    exact ⟨f v w, ReadResult.both_eq_ok.mpr ⟨v, w, hv, hw, rfl⟩⟩

/-- A load gives a value exactly where MemRead answers each of its bytes (40_byte_loader.md R101). -/
theorem exists_loadLE_eq_ok {s : State} {p k : Nat} :
    (∃ v, loadLE s p k = .ok v) ↔ ∀ i < k, ∃ byte, memRead s (p + i) = .ok byte := by
  induction k with
  | zero => exact ⟨fun _ i hi => absurd hi (Nat.not_lt_zero i), fun _ => ⟨0, rfl⟩⟩
  | succ k ih => rw [loadLE, ReadResult.exists_both_eq_ok, ih, Nat.forall_lt_succ_right]

/-- Settles O30: a load reports the lowest refused byte, and its bytes are readable exactly where it gives a value. -/
theorem loadFaultsAtTheLowestRefusedByte : Obligations.LoadFaultsAtTheLowestRefusedByte :=
  fun s p k => ⟨(reportsLowest_loadLE s p k).refused, exists_loadLE_eq_ok⟩

/-! ### FAULTED is left by reset only (R165) -/

theorem not_busy_of_faulted {s : State} (hs : s.stage = stageFaulted) : busy s = false := by
  simp [busy, hs, stageFaulted]

/-- With no operation running a store from outside changes the data space only. -/
theorem storeByte_of_not_busy {s : State} (hb : busy s = false) (addr : Nat) (byte : Byte) :
    ∃ m, storeByte s addr byte = { s with mem := m } := by
  rcases storeByte_cases s addr byte with ⟨h, -⟩ | ⟨-, -, ⟨hbusy, -⟩ | ⟨-, h⟩⟩
  · exact ⟨s.mem, h⟩
  · exact absurd hbusy (Bool.eq_false_iff.mp hb)
  · exact ⟨_, h⟩

/-- In FAULTED every turn but reset changes nothing but the host's side of the state and the data space: START is ignored
there. -/
theorem takeTurn_of_faulted {turn : Turn} {s t : State} (hs : s.stage = stageFaulted) (h : takeTurn turn s = .next t)
    (hr : turn ≠ .reset) : ∃ da l sd rd lines m, t = { withHost s da l sd rd lines with mem := m } := by
  have hb := not_busy_of_faulted hs
  rcases takeTurn_next h with ⟨hreset, -⟩ | ⟨-, ⟨-, hseq⟩ | ⟨-, hhost⟩ | ⟨addr, byte, -, rfl⟩⟩
  · exact absurd hreset hr
  · obtain rfl := sequencerTurn_of_not_busy hb hseq
    exact ⟨_, _, _, _, _, _, rfl⟩
  · rcases hostTurn_cases hhost with ⟨hidle, -⟩ | ⟨da, l, sd, rd, lines, rfl⟩
    · exact absurd (hs.symm.trans hidle) (by decide)
    · exact ⟨da, l, sd, rd, lines, _, rfl⟩
  · obtain ⟨m, hm⟩ := storeByte_of_not_busy hb addr byte
    exact ⟨_, _, _, _, _, m, hm⟩

theorem Inv.done_of_faulted {s : State} (h : Inv s) (hs : s.stage = stageFaulted) : s.done = false :=
  Bool.eq_false_iff.mpr fun hd => absurd (hs.symm.trans (h.done hd)) (by decide)

/-- Settles O41: the turns but reset write none of these registers, and reset clears them. -/
theorem faultedIsSticky : Obligations.FaultedIsSticky := by
  intro s t hs h
  rw [step, nextTurn_snd] at h
  by_cases hr : (nextTurn s).1 = .reset
  · rw [hr] at h
    cases h
    exact ⟨fun hne => absurd hr hne, fun _ => ⟨rfl, rfl, rfl⟩, fun _ => rfl⟩
  · obtain ⟨da, l, sd, rd, lines, m, rfl⟩ := takeTurn_of_faulted (s := { s with schedule := s.schedule.tail }) hs h hr
    exact ⟨fun _ => ⟨hs, rfl, rfl, rfl, rfl, rfl, rfl, rfl, rfl, rfl, rfl, rfl, rfl⟩, fun hreset => absurd hreset hr,
      fun hinv => hinv.done_of_faulted hs⟩

end Sys2Proof.Machine
end

section
/-! PROOFS. The turn of reset (70_reset_and_hazards.md R180): it acts in any state, STATUS reads 0 after it, and what is
outside the block stays. -/

namespace Sys2Proof.Machine

/-- Reset answers in every state, one with a reserved stage code included. -/
theorem step_of_reset {s : State} {ts : List Turn} (h : s.schedule = .reset :: ts) :
    step s = .next (resetBlock { s with schedule := ts }) :=
  (step_of_cons h).trans rfl

/-- In IDLE with DONE clear no field of STATUS is set (10_state.md R30). -/
theorem status_eq_zero {s : State} (hs : s.stage = stageIdle) (hd : s.done = false) : status s = 0 := by
  simp only [status, faultFlag, busy, hs, hd]
  decide

/-- Settles O10: the next state is `resetBlock`, which has every register at its reset value, and so is in IDLE with DONE
clear. -/
theorem resetSetsEveryRegister : Obligations.ResetSetsEveryRegister := by
  intro s ts h
  refine ⟨_, step_of_reset h, ?lanes, ?results, ?control, ?rom, ?status⟩
  case lanes => exact ⟨rfl, rfl, rfl, rfl, rfl, rfl, rfl, rfl⟩
  case results => exact ⟨rfl, rfl, rfl, rfl, rfl⟩
  case control => exact ⟨rfl, rfl, rfl⟩
  case rom => exact congrArg Platform.rom (resetBlock_platform _)
  case status => exact status_eq_zero (resetBlock_stage _) (resetBlock_done _)

/-- Settles O11: the next state is `resetBlock`, which takes what is outside the block, the schedule's rest included, from
the state it finds, and starts the records of an operation anew. -/
theorem resetKeepsWhatIsOutside : Obligations.ResetKeepsWhatIsOutside :=
  fun _ _ h =>
    ⟨_, step_of_reset h, resetBlock_platform _, resetBlock_mem _, resetBlock_program _, resetBlock_schedule _,
      resetBlock_readData _, resetBlock_draws _, resetBlock_reads _, resetBlock_drawn _⟩

end Sys2Proof.Machine
end
